-- ==== Sys2Proof/Word.lean ====
section
/-! DEFINITION. The plain types of the block: its two small words, its enumerations (10_state.md, 30_encoding.md R80 to
R83), one input sample, the configuration pins, the synthesis parameters and the Frame Decoder's operations. The block has
no machine word of one width: sample indices and counts are numbers (00_scope.md R9: every value is unsigned), because the
block never shifts, masks or adds a sample index (20_memory.md R61). -/

namespace Sys2Proof

/-- A BCD value, four bits (30_encoding.md R87). -/
abbrev Nibble := BitVec 4

/-- The digit word, five bits: the value in bits 3 to 0 and the parity bit in bit 4 (30_encoding.md R86). -/
abbrev DigitWord := BitVec 5

/-- The Decoder State (10_state.md R28). -/
inductive FrameState where
  | leadIn | digits | lrc | leadOut
  deriving DecidableEq, Repr

/-- Which clock edge the Bit Sampler waits for (10_state.md R26). -/
inductive Phase where
  | waitCapture | waitUpdate
  deriving DecidableEq, Repr

/-- A transition of the clock line (00_scope.md R12). -/
inductive Edge where
  | falling | rising
  deriving DecidableEq, Repr

/-- POLARITY (10_state.md R44). -/
inductive Polarity where
  | normal | inverted
  deriving DecidableEq, Repr

/-- PARITY_SEVERITY (10_state.md R45). -/
inductive Severity where
  | informational | flagged
  deriving DecidableEq, Repr

/-- ERROR_FOLD (10_state.md R46). -/
inductive Fold where
  | separate | folded
  deriving DecidableEq, Repr

/-- Digit roles (30_encoding.md R83). `beginDigit` and `endDigit` are the spec's Begin and End. -/
inductive Role where
  | leadIn | leadOut | data | beginDigit | separator | endDigit | lrc | unknown
  deriving DecidableEq, Repr

/-- Categories of serialised records (30_encoding.md R83). -/
inductive Category where
  | bit | leadInOut | digit | card | parity | lrc | beginDigit | separator | endDigit | unknown | error
  deriving DecidableEq, Repr

/-- Which lead field a MARK record marks (45_annotation_output.md R230, `mark_kind`). -/
inductive MarkKind where
  | leadIn | leadOut
  deriving DecidableEq, Repr

/-- Which digit flushed the card record (45_annotation_output.md R230, `card_cause`). -/
inductive Cause where
  | separator | endDigit
  deriving DecidableEq, Repr

/-- The model's sticky `fault` mark (10_state.md R51): `clear` is the spec's none. -/
inductive FaultMark where
  | clear | cardOverflow
  deriving DecidableEq, Repr

/-- One sample of the sample input port (10_state.md R21). -/
structure Sample where
  idx : Nat
  clk : Bool
  dat : Bool
  deriving DecidableEq, Repr

/-- The six configuration values: the `cfg_in_*` pins, and the configuration latch (10_state.md R41 to R46). -/
structure Cfg where
  leadIn  : Nat
  leadOut : Nat
  edge    : Edge
  pol     : Polarity
  psev    : Severity
  fold    : Fold
  deriving DecidableEq, Repr

/-- What the host drives in one step: the reset input with the configuration pins, and the sample port
(10_state.md R21, R22). -/
structure Input where
  rst      : Bool
  cfg      : Cfg
  smpValid : Bool
  smp      : Sample
  deriving DecidableEq, Repr

/-- The OPEN synthesis parameters TS_W, CNT_W and CARD_CAP of one block (00_scope.md R8). -/
structure Params where
  tsW     : Nat
  cntW    : Nat
  cardCap : Nat
  deriving DecidableEq, Repr

/-- The operation the Frame Decoder performs in a bit step, with the digit word's fields where it has one
(30_encoding.md R95, the BIT and DIGIT_WORD rows). -/
inductive FrameOp where
  | leadinBit
  | leadinEnd
  | digitsBit
  | digBegin (p : Bool)
  | digSeparator (p : Bool)
  | digEnd (p : Bool)
  | digData (v : Nibble) (p : Bool)
  | digUnknown (v : Nibble) (p : Bool)
  | lrcBit
  | lrcDigit (w : DigitWord)
  | leadoutBit
  | leadoutEnd
  deriving DecidableEq, Repr

end Sys2Proof
end

