-- ==== Sys2Proof/Syntax.lean ====
section
/-! DEFINITION. The operations of the block as instructions: one constructor per operation of spec/opcode_table.json
(30_encoding.md R95). DIG_DATA and DIG_UNKNOWN have thirteen rows each, one per digit value; the value is their operand. -/

namespace Sys2Proof

/-- An operation with its operands. The STEP rows (`reset` to `smpHold`) are what one step performs: their operand is what
the ports carry. The BIT and DIGIT_WORD rows are what the Frame Decoder performs inside a bit step: `stop` is the end index
of the delivered bit (41_frame_fsm.md R140), `p` and `v` are the parity bit and the value of the digit word (30_encoding.md
R86, R87), `w` is the whole digit word. -/
inductive Instr where
  | reset (cfg : Cfg)
  | smpNone
  | smpSeed (smp : Sample)
  | smpCapture (smp : Sample)
  | smpIgnore (smp : Sample)
  | smpUpdate (smp : Sample)
  | smpHold (smp : Sample)
  | leadinBit (stop : Nat)
  | leadinEnd (stop : Nat)
  | digitsBit (stop : Nat)
  | digBegin (p : Bool) (stop : Nat)
  | digSeparator (p : Bool) (stop : Nat)
  | digEnd (p : Bool) (stop : Nat)
  | digData (v : Nibble) (p : Bool) (stop : Nat)
  | digUnknown (v : Nibble) (p : Bool) (stop : Nat)
  | lrcBit (stop : Nat)
  | lrcDigit (w : DigitWord) (stop : Nat)
  | leadoutBit (stop : Nat)
  | leadoutEnd (stop : Nat)
  deriving DecidableEq, Repr

end Sys2Proof
end

