-- ==== Sys2Proof/WellFormed.lean ====
section
/-! DEFINITION. What the ports of a block with given parameters can carry, and which operands an operation can have. -/

namespace Sys2Proof

/-- The stated ranges of the OPEN parameters (00_scope.md R8). -/
def Params.legal (p : Params) : Bool :=
  decide (1 ≤ p.tsW) && decide (3 ≤ p.cntW) && decide (1 ≤ p.cardCap)

/-- The number fits a sample index, TS_W bits (10_state.md R21). -/
def Params.fitsIndex (p : Params) (i : Nat) : Bool := decide (i < 2 ^ p.tsW)

/-- The number fits a count, CNT_W bits (10_state.md R22). -/
def Params.fitsCount (p : Params) (n : Nat) : Bool := decide (n < 2 ^ p.cntW)

/-- The configuration fits the `cfg_in_*` pins. -/
def Cfg.fits (p : Params) (c : Cfg) : Bool := p.fitsCount c.leadIn && p.fitsCount c.leadOut

/-- A legal configuration: both lead lengths positive (10_state.md R47). -/
def Cfg.legal (c : Cfg) : Bool := decide (1 ≤ c.leadIn) && decide (1 ≤ c.leadOut)

/-- The value is none of the control codes 11, 13 and 15 (30_encoding.md R90). -/
def nonControl (v : Nibble) : Bool := v != 11#4 && v != 13#4 && v != 15#4

/-- The operands are ones the block can meet: indices and lengths fit their ports, and a Data or Unknown digit has no
control code. -/
def Instr.wf (p : Params) : Instr → Bool
  | .reset cfg => cfg.fits p
  | .smpNone => true
  | .smpSeed smp => p.fitsIndex smp.idx
  | .smpCapture smp => p.fitsIndex smp.idx
  | .smpIgnore smp => p.fitsIndex smp.idx
  | .smpUpdate smp => p.fitsIndex smp.idx
  | .smpHold smp => p.fitsIndex smp.idx
  | .leadinBit stop => p.fitsIndex stop
  | .leadinEnd stop => p.fitsIndex stop
  | .digitsBit stop => p.fitsIndex stop
  | .digBegin _ stop => p.fitsIndex stop
  | .digSeparator _ stop => p.fitsIndex stop
  | .digEnd _ stop => p.fitsIndex stop
  | .digData v _ stop => nonControl v && p.fitsIndex stop
  | .digUnknown v _ stop => nonControl v && p.fitsIndex stop
  | .lrcBit stop => p.fitsIndex stop
  | .lrcDigit _ stop => p.fitsIndex stop
  | .leadoutBit stop => p.fitsIndex stop
  | .leadoutEnd stop => p.fitsIndex stop

end Sys2Proof
end

