-- ==== Sys2Proof/Decode.lean ====
section
/-! DEFINITION. The register and enumeration codes (30_encoding.md R80 to R83), the digit word's fields (R86, R87), and the
operation selector (R95): the block fetches no instruction words (10_state.md R24, 20_memory.md R70), so what is decoded is
the selector's conditions together with the digit word. The encoder stands after the decoder. -/

namespace Sys2Proof

/-! ### Codes -/

/-- `state` (30_encoding.md R80). -/
def FrameState.code : FrameState → BitVec 2
  | .leadIn => 0#2
  | .digits => 1#2
  | .lrc => 2#2
  | .leadOut => 3#2

/-- All four codes of `state` are used (30_encoding.md R80). -/
def FrameState.ofCode (c : BitVec 2) : FrameState :=
  if c = 0#2 then .leadIn else if c = 1#2 then .digits else if c = 2#2 then .lrc else .leadOut

/-- `phase` (30_encoding.md R82). -/
def Phase.code : Phase → BitVec 1
  | .waitCapture => 0#1
  | .waitUpdate => 1#1

/-- `cfg_edge` (30_encoding.md R81). -/
def Edge.code : Edge → BitVec 1
  | .falling => 0#1
  | .rising => 1#1

/-- `cfg_pol` (30_encoding.md R81). -/
def Polarity.code : Polarity → BitVec 1
  | .normal => 0#1
  | .inverted => 1#1

/-- `cfg_psev` (30_encoding.md R81). -/
def Severity.code : Severity → BitVec 1
  | .informational => 0#1
  | .flagged => 1#1

/-- `cfg_fold` (30_encoding.md R81). -/
def Fold.code : Fold → BitVec 1
  | .separate => 0#1
  | .folded => 1#1

/-- `dig_role` (30_encoding.md R83). -/
def Role.code : Role → BitVec 3
  | .leadIn => 0#3
  | .leadOut => 1#3
  | .data => 2#3
  | .beginDigit => 3#3
  | .separator => 4#3
  | .endDigit => 5#3
  | .lrc => 6#3
  | .unknown => 7#3

/-- The category code of a serialised record; codes 11 to 15 are unused (30_encoding.md R83). -/
def Category.code : Category → BitVec 4
  | .bit => 0#4
  | .leadInOut => 1#4
  | .digit => 2#4
  | .card => 3#4
  | .parity => 4#4
  | .lrc => 5#4
  | .beginDigit => 6#4
  | .separator => 7#4
  | .endDigit => 8#4
  | .unknown => 9#4
  | .error => 10#4

/-- `mark_kind` (45_annotation_output.md R230). -/
def MarkKind.code : MarkKind → BitVec 1
  | .leadIn => 0#1
  | .leadOut => 1#1

/-- `card_cause` (45_annotation_output.md R230). -/
def Cause.code : Cause → BitVec 1
  | .separator => 0#1
  | .endDigit => 1#1

/-! ### The digit word -/

/-- v = w[3:0] (30_encoding.md R87). -/
def wordValue (w : DigitWord) : Nibble := w.extractLsb' 0 4

/-- The parity bit w[4] (30_encoding.md R86). -/
def wordParityBit (w : DigitWord) : Bool := w.getLsbD 4

/-- The digit word with parity bit `p` and value `v` (30_encoding.md R86). -/
def digitWord (p : Bool) (v : Nibble) : DigitWord := BitVec.cons p v

/-- The control code BEGIN, "b" (30_encoding.md R90). -/
def codeBegin : Nibble := 11#4

/-- The control code SEPARATOR, "d" (30_encoding.md R90). -/
def codeSeparator : Nibble := 13#4

/-- The control code END, "f" (30_encoding.md R90). -/
def codeEnd : Nibble := 15#4

/-! ### The selector -/

/-- opposite(Rising) = Falling and opposite(Falling) = Rising (00_scope.md R12). -/
def Edge.opposite : Edge → Edge
  | .falling => .rising
  | .rising => .falling

/-- The conditions that select a step's operation (30_encoding.md R95, the STEP rows), with what the ports carry. -/
structure StepSel where
  rst      : Bool
  smpValid : Bool
  clkPrevV : Bool
  phase    : Phase
  edge     : Option Edge
  cfgEdge  : Edge
  cfg      : Cfg
  smp      : Sample
  deriving DecidableEq, Repr

/-- The conditions that select a bit step's Frame Decoder operation (30_encoding.md R95, the BIT and DIGIT_WORD rows): `n`
is the buffer length after the bit is appended, `w` the shift register, `stop` the bit's end. -/
structure BitSel where
  state     : FrameState
  n         : Nat
  leadIn    : Nat
  leadOut   : Nat
  seenBegin : Bool
  w         : DigitWord
  stop      : Nat
  deriving DecidableEq, Repr

/-- What the block decodes: a step's selector, or a bit step's. -/
inductive Selector where
  | step (sel : StepSel)
  | bit (sel : BitSel)
  deriving DecidableEq, Repr

/-- Which operation a resolved digit in state Digits selects: b, then d, then f, then the rest by `seen_begin`
(30_encoding.md R90, 41_frame_fsm.md R147). -/
def decodeDigit (seenBegin : Bool) (w : DigitWord) : FrameOp :=
  if wordValue w = codeBegin then .digBegin (wordParityBit w)
  else if wordValue w = codeSeparator then .digSeparator (wordParityBit w)
  else if wordValue w = codeEnd then .digEnd (wordParityBit w)
  else if seenBegin then .digData (wordValue w) (wordParityBit w)
  else .digUnknown (wordValue w) (wordParityBit w)

/-- Which Frame Decoder operation a bit step performs: step 4 of the per-bit update (41_frame_fsm.md R140). -/
def decodeFrame (b : BitSel) : FrameOp :=
  match b.state with
  | .leadIn => if b.n = b.leadIn then .leadinEnd else .leadinBit
  | .digits => if b.n = 5 then decodeDigit b.seenBegin b.w else .digitsBit
  | .lrc => if b.n = 5 then .lrcDigit b.w else .lrcBit
  | .leadOut => if b.n = b.leadOut then .leadoutEnd else .leadoutBit

/-- A Frame Decoder operation as an instruction, in a bit step that ends at `stop`. -/
def FrameOp.toInstr (stop : Nat) : FrameOp → Instr
  | .leadinBit => .leadinBit stop
  | .leadinEnd => .leadinEnd stop
  | .digitsBit => .digitsBit stop
  | .digBegin p => .digBegin p stop
  | .digSeparator p => .digSeparator p stop
  | .digEnd p => .digEnd p stop
  | .digData v p => .digData v p stop
  | .digUnknown v p => .digUnknown v p stop
  | .lrcBit => .lrcBit stop
  | .lrcDigit w => .lrcDigit w stop
  | .leadoutBit => .leadoutBit stop
  | .leadoutEnd => .leadoutEnd stop

/-- Which operation a step performs (30_encoding.md R95; the order of the tests is that of 40_bit_sampler.md R120). -/
def decodeStep (d : StepSel) : Instr :=
  if d.rst then .reset d.cfg
  else if !d.smpValid then .smpNone
  else if !d.clkPrevV then .smpSeed d.smp
  else match d.phase with
    | .waitCapture => if d.edge = some d.cfgEdge then .smpCapture d.smp else .smpIgnore d.smp
    | .waitUpdate => if d.edge = some d.cfgEdge.opposite then .smpUpdate d.smp else .smpHold d.smp

/-- The decoder: every selector has its operation ("exactly one row applies to every step and every bit step",
30_encoding.md R95). -/
def decode : Selector → Instr
  | .step d => decodeStep d
  | .bit b => (decodeFrame b).toInstr b.stop

/-- Why a table word is no digit word. -/
inductive Reject where
  /-- A bit above bit 4 is set: a digit word has five bits (30_encoding.md R86). -/
  | notFiveBits
  deriving DecidableEq, Repr

/-- The digit word held in a row of spec/opcode_table.json: its bits 4 to 0; no other bit may be set. -/
def tableWord (w : Nat) : Except Reject DigitWord :=
  if w < 32 then .ok (BitVec.ofNat 5 w) else .error .notFiveBits

/-- The selector of a digit completed in state Digits whose word is `w`. -/
def digitSel (seenBegin : Bool) (w : DigitWord) (stop : Nat) : Selector :=
  .bit { state := .digits, n := 5, leadIn := 1, leadOut := 1, seenBegin := seenBegin, w := w, stop := stop }

/-- The instruction the decoder reads from a table row's word. The table gives bits to the digit word alone (its DIG_* rows);
the other selector conditions have none and are those of the first digit after a reset: state Digits, n = 5, seen_begin = 0,
and the operand `stop`, which has no bits either, is 0. Log entry 9. -/
def decodeTableWord (_nbits w : Nat) : Option Instr :=
  match tableWord w with
  | .ok d => some (decode (digitSel false d 0))
  | .error _ => none

/-! ### The encoder -/

/-- A sample port that carries nothing of interest. -/
def Sample.none : Sample := { idx := 0, clk := false, dat := false }

/-- Configuration pins that carry nothing of interest. -/
def Cfg.none : Cfg :=
  { leadIn := 0, leadOut := 0, edge := .falling, pol := .normal, psev := .informational, fold := .separate }

/-- The selector of a step that is given a sample when one has been seen before, with CAPTURE_EDGE = Falling. -/
def sampleSel (phase : Phase) (edge : Option Edge) (smp : Sample) : Selector :=
  .step { rst := false, smpValid := true, clkPrevV := true, phase := phase, edge := edge, cfgEdge := .falling,
          cfg := Cfg.none, smp := smp }

/-- The selector of a bit step in a lead field of two bits, or before a digit's fifth bit. -/
def bitSel (state : FrameState) (n stop : Nat) : Selector :=
  .bit { state := state, n := n, leadIn := 2, leadOut := 2, seenBegin := false, w := 0#5, stop := stop }

/-- The encoder: a selector (30_encoding.md R95) whose operation is the given one, with the digit word of R86 for the
digits. -/
def encode : Instr → Selector
  | .reset cfg =>
      .step { rst := true, smpValid := false, clkPrevV := false, phase := .waitCapture, edge := none, cfgEdge := .falling,
              cfg := cfg, smp := Sample.none }
  | .smpNone =>
      .step { rst := false, smpValid := false, clkPrevV := false, phase := .waitCapture, edge := none, cfgEdge := .falling,
              cfg := Cfg.none, smp := Sample.none }
  | .smpSeed smp =>
      .step { rst := false, smpValid := true, clkPrevV := false, phase := .waitCapture, edge := none, cfgEdge := .falling,
              cfg := Cfg.none, smp := smp }
  | .smpCapture smp => sampleSel .waitCapture (some .falling) smp
  | .smpIgnore smp => sampleSel .waitCapture none smp
  | .smpUpdate smp => sampleSel .waitUpdate (some .rising) smp
  | .smpHold smp => sampleSel .waitUpdate none smp
  | .leadinBit stop => bitSel .leadIn 1 stop
  | .leadinEnd stop => bitSel .leadIn 2 stop
  | .digitsBit stop => bitSel .digits 1 stop
  | .digBegin p stop => digitSel false (digitWord p codeBegin) stop
  | .digSeparator p stop => digitSel false (digitWord p codeSeparator) stop
  | .digEnd p stop => digitSel false (digitWord p codeEnd) stop
  | .digData v p stop => digitSel true (digitWord p v) stop
  | .digUnknown v p stop => digitSel false (digitWord p v) stop
  | .lrcBit stop => bitSel .lrc 1 stop
  | .lrcDigit w stop =>
      .bit { state := .lrc, n := 5, leadIn := 1, leadOut := 1, seenBegin := false, w := w, stop := stop }
  | .leadoutBit stop => bitSel .leadOut 1 stop
  | .leadoutEnd stop => bitSel .leadOut 2 stop

end Sys2Proof
end

