-- ==== Sys2Proof/Machine/Port.lean ====
section
/-! DEFINITION. The annotation output port: the seven channels and their fields (45_annotation_output.md R230), and the
serialised records (R234). A channel whose strobe is 0 is `none`: its other fields are any value and the sink ignores them
(R231), so the model has no such fields (log entry 6). Spans are [start, stop); `stop` is the spec's end. -/

namespace Sys2Proof

/-- Channel BIT: `bit_val`, `bit_s`, `bit_e`. -/
structure BitOut where
  val   : Bool
  start : Nat
  stop  : Nat
  deriving DecidableEq, Repr

/-- Channel MARK: `mark_kind`, `mark_s`, `mark_e`. -/
structure MarkOut where
  kind  : MarkKind
  start : Nat
  stop  : Nat
  deriving DecidableEq, Repr

/-- Channels LRCERR and PERR: a span. -/
structure SpanOut where
  start : Nat
  stop  : Nat
  deriving DecidableEq, Repr

/-- Channel PAR: `par_odd`, `par_s`, `par_e`. -/
structure ParOut where
  odd   : Bool
  start : Nat
  stop  : Nat
  deriving DecidableEq, Repr

/-- Channel DIG: `dig_role`, `dig_val`, `dig_s`, `dig_e`. -/
structure DigOut where
  role  : Role
  val   : Nibble
  start : Nat
  stop  : Nat
  deriving DecidableEq, Repr

/-- Channel CARD: `card_cause`, `card_s`, `card_e`, `card_n`, and the first `card_n` digits of `card_d`. -/
structure CardOut where
  cause  : Cause
  start  : Nat
  stop   : Nat
  n      : Nat
  digits : List Nibble
  deriving DecidableEq, Repr

/-- The output bundle of one step: a channel is `some` exactly when its strobe is 1 (45_annotation_output.md R231). -/
structure Bundle where
  bit    : Option BitOut
  mark   : Option MarkOut
  lrcerr : Option SpanOut
  par    : Option ParOut
  perr   : Option SpanOut
  dig    : Option DigOut
  card   : Option CardOut
  deriving DecidableEq, Repr

/-- What one `emit` of the pseudocode asserts: a channel with its fields (00_scope.md R10). -/
inductive Emission where
  | bit (o : BitOut)
  | mark (o : MarkOut)
  | lrcerr (o : SpanOut)
  | par (o : ParOut)
  | perr (o : SpanOut)
  | dig (o : DigOut)
  | card (o : CardOut)
  deriving DecidableEq, Repr

/-- The text of a serialised record (45_annotation_output.md R234, R236). `marker` is a marker's label, whose characters
are the sink's. -/
inductive Text where
  | bit (b : Bool)
  | marker (kind : MarkKind)
  | lrcError
  | odd
  | even
  | parityError
  | hex (v : Nibble)
  | card (digits : List Nibble)
  | noData
  deriving DecidableEq, Repr

/-- A serialised record (start, end, category, text) (45_annotation_output.md R234). -/
structure Record where
  start    : Nat
  stop     : Nat
  category : Category
  text     : Text
  deriving DecidableEq, Repr

end Sys2Proof
end

