-- ==== Sys2Proof/Machine/Operands.lean ====
section
/-! DEFINITION. The operand functions: what the ports carry, edge detection, the polarity map, the shift register's input,
the hex characters, and the packing of the CARD digits. -/

namespace Sys2Proof

/-- The input a step sees when the host presents nothing: no reset, no sample (00_scope.md R17 (i)). -/
def Input.idle : Input := { rst := false, cfg := Cfg.none, smpValid := false, smp := Sample.none }

/-- A sample as the TS_W wires of `smp_idx` carry it (10_state.md R21; log entry 4). -/
def Sample.onPort (p : Params) (s : Sample) : Sample := { s with idx := s.idx % 2 ^ p.tsW }

/-- A configuration as the CNT_W wires of the lead-length pins carry it (10_state.md R22; log entry 4). -/
def Cfg.onPort (p : Params) (c : Cfg) : Cfg :=
  { c with leadIn := c.leadIn % 2 ^ p.cntW, leadOut := c.leadOut % 2 ^ p.cntW }

/-- What the wires of a block with parameters `p` carry when the host presents `i`. -/
def Input.onPort (p : Params) (i : Input) : Input := { i with cfg := i.cfg.onPort p, smp := i.smp.onPort p }

/-- detect(a, b) (40_bit_sampler.md R121). -/
def detect (a b : Bool) : Option Edge :=
  match a, b with
  | false, true => some .rising
  | true, false => some .falling
  | _, _ => none

/-- polmap (40_bit_sampler.md R125). -/
def polmap (pol : Polarity) (d : Bool) : Bool :=
  match pol with
  | .normal => d
  | .inverted => !d

/-- The level the clock line has just after the given edge. -/
def Edge.levelAfter : Edge → Bool
  | .falling => false
  | .rising => true

/-- The shift register's next content: the word with value `value` entering at bit 4 and the rest shifted right
(10_state.md R30, 41_frame_fsm.md R141). -/
def shiftIn (value : Bool) (w : DigitWord) : DigitWord := BitVec.cons value (w.extractLsb' 1 4)

/-- The lowercase hex character of a digit value (30_encoding.md R88). -/
def hexChar (v : Nibble) : Char :=
  if v.toNat ≤ 9 then Char.ofNat (0x30 + v.toNat) else Char.ofNat (0x61 + (v.toNat - 10))

/-- `card_d` with the given digits: digit i in bits [4i+3:4i] (45_annotation_output.md R230). The bits above the last digit
are any value there (R231); here they are not digits of the record. -/
def packDigits : List Nibble → Nat
  | [] => 0
  | d :: ds => d.toNat + 16 * packDigits ds

end Sys2Proof
end

