-- ==== Sys2Proof/Machine/Flags.lean ====
section
/-! DEFINITION. The block's combinational flags (10_state.md R38): the parity verdict and the LRC match; and the LRC
arithmetic behind the second (43_lrc.md). All of it is arithmetic mod 2. -/

namespace Sys2Proof

/-- The exclusive or of all bits (00_scope.md R9). -/
def xorReduce (w : Nat) (v : BitVec w) : Bool := (List.range w).foldl (fun acc i => acc ^^ v.getLsbD i) false

/-- The parity verdict: 1 ("Odd") or 0 ("Even") (42_digit_resolution.md R172). -/
def oddParity (w : DigitWord) : Bool := xorReduce 5 w

/-- The parity bit of a well-formed digit of value v (30_encoding.md R89). -/
def goodParityBit (v : Nibble) : Bool := !xorReduce 4 v

/-- The LRC accumulation (43_lrc.md R190). -/
def accumulate (acc v : Nibble) : Nibble := acc ^^^ v

/-- lrc_expected(a) (43_lrc.md R192). -/
def lrcExpected (a : Nibble) : DigitWord := BitVec.cons (!xorReduce 4 a) a

/-- lrc_ok (43_lrc.md R193). -/
def lrcOk (w expected : DigitWord) : Bool := w == expected

end Sys2Proof
end

