-- ==== Sys2Proof/Machine/Serial.lean ====
section
/-! DEFINITION. The output bundle's channels in order, and the serialisation of a channel to a record
(45_annotation_output.md R233 to R236). -/

namespace Sys2Proof

/-- Assert one channel's strobe with its fields (45_annotation_output.md R230). -/
def Bundle.put (b : Bundle) : Emission → Bundle
  | .bit o => { b with bit := some o }
  | .mark o => { b with mark := some o }
  | .lrcerr o => { b with lrcerr := some o }
  | .par o => { b with par := some o }
  | .perr o => { b with perr := some o }
  | .dig o => { b with dig := some o }
  | .card o => { b with card := some o }

/-- The records of one step in channel order (45_annotation_output.md R233). -/
def Bundle.emissions (b : Bundle) : List Emission :=
  (b.bit.map Emission.bit).toList ++ (b.mark.map Emission.mark).toList ++ (b.lrcerr.map Emission.lrcerr).toList
    ++ (b.par.map Emission.par).toList ++ (b.perr.map Emission.perr).toList ++ (b.dig.map Emission.dig).toList
    ++ (b.card.map Emission.card).toList

/-- The category of a DIG record (45_annotation_output.md R235). The roles LeadIn and LeadOut never stand on DIG; their
category is the markers' (decision D16). -/
def roleCategory (fold : Fold) : Role → Category
  | .leadIn => .leadInOut
  | .leadOut => .leadInOut
  | .data => .digit
  | .beginDigit => .beginDigit
  | .separator => .separator
  | .endDigit => .endDigit
  | .lrc => .lrc
  | .unknown => match fold with
    | .separate => .unknown
    | .folded => .error

/-- The category of an LRCERR or PERR record (45_annotation_output.md R235). -/
def errorCategory : Fold → Category
  | .separate => .parity
  | .folded => .error

/-- The text of a card string (45_annotation_output.md R234, 44_card_record.md R214). -/
def cardText (n : Nat) (digits : List Nibble) : Text := if n = 0 then .noData else .card digits

/-- One channel as one record (45_annotation_output.md R234). -/
def serialise (fold : Fold) : Emission → Record
  | .bit o => { start := o.start, stop := o.stop, category := .bit, text := .bit o.val }
  | .mark o => { start := o.start, stop := o.stop, category := .leadInOut, text := .marker o.kind }
  | .lrcerr o => { start := o.start, stop := o.stop, category := errorCategory fold, text := .lrcError }
  | .par o => { start := o.start, stop := o.stop, category := .parity, text := if o.odd then .odd else .even }
  | .perr o => { start := o.start, stop := o.stop, category := errorCategory fold, text := .parityError }
  | .dig o => { start := o.start, stop := o.stop, category := roleCategory fold o.role, text := .hex o.val }
  | .card o => { start := o.start, stop := o.stop, category := .card, text := cardText o.n o.digits }

/-- The characters of a text; a marker's are the sink's (45_annotation_output.md R236). -/
def Text.render : Text → Option String
  | .bit b => some (if b then "1" else "0")
  | .marker _ => none
  | .lrcError => some "LRC Error"
  | .odd => some "Odd"
  | .even => some "Even"
  | .parityError => some "Parity Error"
  | .hex v => some (String.ofList [hexChar v])
  | .card ds => some (String.ofList (ds.map hexChar))
  | .noData => some "No Data"

end Sys2Proof
end

