-- ==== Sys2Proof/Config.lean ====
section
/-! DEFINITION. What is fixed for one launch of the block, and the free values. -/

namespace Sys2Proof

/-- The free values ("draws") of the spec: any value, under no law (00_scope.md R13, 93_implementation_defined.md I1 to I3).
It has no body, so nothing can be proved of a value of it; the n-th draw is `Config.freeValue n`. Log entry 2. -/
opaque Config.freeValue : Nat → Nat

/-- The parameters of the launch `State.reset` (DESIGN CHOICE, log entry 3: 00_scope.md R8 leaves them OPEN; CARD_CAP = 32
is what 95_test_vectors.md takes). Statements about all states hold for every value, since the parameters are a field of
State. -/
def Config.launchParams : Params := { tsW := 32, cntW := 8, cardCap := 32 }

/-- The default configuration (00_scope.md R8): 10, 10, Falling, Inverted, Informational, Separate. -/
def Config.defaults : Cfg :=
  { leadIn := 10, leadOut := 10, edge := .falling, pol := .inverted, psev := .informational, fold := .separate }

end Sys2Proof
end

