-- ==== Sys2Proof/Machine/Draw.lean ====
section
/-! DEFINITION. Free values narrowed to the width of the place they fill (00_scope.md R13; log entry 2). -/

namespace Sys2Proof

/-- The n-th draw as a bit. -/
def drawBit (n : Nat) : Bool := decide (Config.freeValue n % 2 = 1)

/-- The n-th draw as a sample index of TS_W bits. -/
def drawIndex (p : Params) (n : Nat) : Nat := Config.freeValue n % 2 ^ p.tsW

/-- The n-th draw as a 4-bit value. -/
def drawNibble (n : Nat) : Nibble := BitVec.ofNat 4 (Config.freeValue n)

/-- The n-th draw as a 5-bit value. -/
def drawWord (n : Nat) : DigitWord := BitVec.ofNat 5 (Config.freeValue n)

/-- A whole card buffer of draws, from the n-th on (10_state.md R48, `card_buf[*]`). -/
def drawCardBuf (p : Params) (n : Nat) : List Nibble := (List.range p.cardCap).map (fun i => drawNibble (n + i))

/-- How many draws a hardware reset uses: seven registers and the card buffer. -/
def resetDraws (p : Params) : Nat := 7 + p.cardCap

end Sys2Proof
end

