-- ==== Sys2Proof/Machine/State.lean ====
section
/-! DEFINITION. The state of the block (10_state.md R20), its ports, the reasons a step can stop, and the state after a
launch (70_reset_and_hazards.md R281). -/

namespace Sys2Proof.Machine

/-- The block and its two streams. Field names are the spec's register names. -/
structure State where
  /-- The instance's OPEN parameters (00_scope.md R8): the model's own field, which no step changes (log entry 3). -/
  params      : Params
  /-- The inputs the host has yet to present, the next one first: one is consumed by each step (20_memory.md R61 (a); log
  entry 4). -/
  inputs      : List Input
  /-- 10_state.md R25. -/
  clkPrev     : Bool
  /-- 10_state.md R25. -/
  clkPrevV    : Bool
  /-- 10_state.md R26. -/
  phase       : Phase
  /-- 10_state.md R27. -/
  capIdx      : Nat
  /-- 10_state.md R27. -/
  capBit      : Bool
  /-- 10_state.md R28. -/
  state       : FrameState
  /-- 10_state.md R29. -/
  bitcnt      : Nat
  /-- 10_state.md R30. -/
  shreg       : DigitWord
  /-- 10_state.md R31. -/
  digitStart  : Nat
  /-- 10_state.md R31. -/
  digitStartV : Bool
  /-- 10_state.md R32. -/
  cardStart   : Nat
  /-- 10_state.md R32. -/
  cardStartV  : Bool
  /-- 10_state.md R33. -/
  cardEnd     : Nat
  /-- 10_state.md R34. -/
  cardLen     : Nat
  /-- 10_state.md R34: CARD_CAP elements, of which the first `cardLen` are the card string. -/
  cardBuf     : List Nibble
  /-- 10_state.md R35. -/
  lrcAcc      : Nibble
  /-- 10_state.md R36. -/
  lrcExp      : DigitWord
  /-- 10_state.md R37. -/
  seenBegin   : Bool
  /-- The configuration latch (10_state.md R40 to R46). -/
  cfg         : Cfg
  /-- The model's sticky mark (10_state.md R51). -/
  fault       : FaultMark
  /-- The output channels in the last step (45_annotation_output.md R230). -/
  out         : Bundle
  /-- The annotation output stream, oldest record first (20_memory.md R61 (b), 45_annotation_output.md R233). -/
  stream      : List Record
  /-- How many free values have been drawn: the model's own field (log entry 2). -/
  draws       : Nat
  deriving DecidableEq, Repr

/-- Why a step ends the run in a fault. -/
inductive Fault where
  /-- Fault(CardOverflow): a Data digit finds the card string full (44_card_record.md R212, 60_exceptions.md R257). Raised by
  DIG_DATA, and by SMP_UPDATE when it performs DIG_DATA. `ended` is the state the run is left in, with the sticky `fault`
  mark set; apart from the mark its contents are not defined by the spec. Safe: no claim holds past it. -/
  | cardOverflow (ended : State)
  deriving DecidableEq, Repr

/-- Why a step is refused. -/
inductive Refusal where
  /-- refuse(IllegalConfig): a hardware reset with a lead length of 0 (10_state.md R47, 60_exceptions.md R256). Raised by
  RESET. Safe: the session has no meaning, so no claim holds of it. -/
  | illegalConfig
  /-- The operation has no meaning in the model yet. Raised by an arm of `exec` that rejects its operation by name; there is
  none. Safe. -/
  | notModelled (mnemonic : String)
  deriving DecidableEq, Repr

/-- No channel's strobe is asserted (45_annotation_output.md R231). -/
def noOutput : Bundle :=
  { bit := none, mark := none, lrcerr := none, par := none, perr := none, dig := none, card := none }

/-- A launch: the state that a hardware reset with configuration `c` leaves in a block with parameters `p`
(70_reset_and_hazards.md R281, 10_state.md R48). The registers R48 calls unspecified hold draws (log entry 1). -/
def State.launch (p : Params) (c : Cfg) : State :=
  { params := p, inputs := []
    clkPrev := drawBit 0, clkPrevV := false, phase := .waitCapture, capIdx := drawIndex p 1, capBit := drawBit 2
    state := .leadIn, bitcnt := 0, shreg := 0#5
    digitStart := drawIndex p 3, digitStartV := false
    cardStart := drawIndex p 4, cardStartV := false, cardEnd := drawIndex p 5, cardLen := 0, cardBuf := drawCardBuf p 7
    lrcAcc := 0#4, lrcExp := drawWord 6, seenBegin := false
    cfg := c, fault := .clear, out := noOutput, stream := [], draws := resetDraws p }

/-- The launch with the default configuration (00_scope.md R8) and the parameters of log entry 3; nothing is placed on the
sample input (log entry 4). -/
def State.reset : State := State.launch Config.launchParams Config.defaults

end Sys2Proof.Machine
end

