-- ==== Sys2Proof/Machine/Ops.lean ====
section
/-! DEFINITION. The named operations over the registers, the output port and the input queue. The block has no memory
(20_memory.md R60), so there is none over memory; it has no trap (60_exceptions.md R250, R261, R262), so there is no
exception entry or return: the one thing raised is the model's CardOverflow fault. -/

namespace Sys2Proof.Machine

/-! ### The ports -/

/-- What the input ports carry in this step: the next pending input, or nothing (00_scope.md R7, R17). -/
def State.port (s : State) : Input := (s.inputs.headD Input.idle).onPort s.params

/-- The pending input has been consumed (20_memory.md R61 (a)). -/
def State.popInput (s : State) : State := { s with inputs := s.inputs.tail }

/-- A step begins with no channel's strobe asserted (45_annotation_output.md R231). -/
def State.beginStep (s : State) : State := { s with out := noOutput }

/-- `emit`: the channel is asserted, and its record joins the output stream (00_scope.md R10, 45_annotation_output.md R233). -/
def State.emit (e : Emission) (s : State) : State :=
  { s with out := s.out.put e, stream := s.stream ++ [serialise s.cfg.fold e] }

/-! ### The selector's conditions -/

/-- The conditions that select this step's operation (30_encoding.md R95, 40_bit_sampler.md R120). -/
def State.stepSel (s : State) : StepSel :=
  { rst := s.port.rst, smpValid := s.port.smpValid, clkPrevV := s.clkPrevV, phase := s.phase
    edge := detect s.clkPrev s.port.smp.clk, cfgEdge := s.cfg.edge, cfg := s.port.cfg, smp := s.port.smp }

/-- The conditions that select a bit step's Frame Decoder operation, after steps 1 to 3 of the per-bit update
(41_frame_fsm.md R140). -/
def State.bitSel (stop : Nat) (s : State) : BitSel :=
  { state := s.state, n := s.bitcnt, leadIn := s.cfg.leadIn, leadOut := s.cfg.leadOut, seenBegin := s.seenBegin
    w := s.shreg, stop := stop }

/-! ### The per-bit update, steps 1 to 3 -/

/-- Step 1: append the bit and emit BIT (41_frame_fsm.md R141). -/
def State.appendBit (value : Bool) (start stop : Nat) (s : State) : State :=
  State.emit (.bit { val := value, start := start, stop := stop })
    { s with shreg := shiftIn value s.shreg, bitcnt := s.bitcnt + 1 }

/-- The start a span has once it is open: its own if it was open, the bit's if not (41_frame_fsm.md R142, R143). -/
def openStart (wasOpen : Bool) (own start : Nat) : Nat := bif wasOpen then own else start

/-- Step 2: open the digit span if it is not open (41_frame_fsm.md R142). -/
def State.openDigit (start : Nat) (s : State) : State :=
  { s with digitStart := openStart s.digitStartV s.digitStart start, digitStartV := true }

/-- Step 3: open the card span if it is not open (41_frame_fsm.md R143). -/
def State.openCard (start : Nat) (s : State) : State :=
  { s with cardStart := openStart s.cardStartV s.cardStart start, cardStartV := true }

/-- Steps 1 to 3 of the per-bit update (41_frame_fsm.md R140). -/
def State.takeBit (value : Bool) (start stop : Nat) (s : State) : State :=
  ((s.appendBit value start stop).openDigit start).openCard start

/-! ### Digits -/

/-- The digit tail: clear the bit buffer and the digit span (41_frame_fsm.md R153). -/
def State.clearBuffer (s : State) : State := { s with bitcnt := 0, digitStartV := false }

/-- `emit DIG` over the digit span (41_frame_fsm.md R148 to R152, R155). -/
def State.emitDig (role : Role) (v : Nibble) (stop : Nat) (s : State) : State :=
  s.emit (.dig { role := role, val := v, start := s.digitStart, stop := stop })

/-- The flagged parity verdict (42_digit_resolution.md R173). -/
def State.flagParity (w : DigitWord) (stop : Nat) (s : State) : State :=
  if s.cfg.psev = .flagged ∧ oddParity w = false then s.emit (.perr { start := s.digitStart, stop := stop }) else s

/-- resolve(w) (42_digit_resolution.md R170): accumulate, then the parity verdict. -/
def State.resolve (w : DigitWord) (stop : Nat) (s : State) : State :=
  State.flagParity w stop
    (State.emit (.par { odd := oddParity w, start := s.digitStart, stop := stop })
      { s with lrcAcc := accumulate s.lrcAcc (wordValue w) })

/-! ### The card record -/

/-- The string holds CARD_CAP digits (44_card_record.md R212). -/
def State.cardFull (s : State) : Bool := s.cardLen == s.params.cardCap

/-- `raise Fault(CardOverflow)`: the sticky mark is set and the run ends (10_state.md R51, 44_card_record.md R212). -/
def State.raiseCardOverflow (s : State) : Host.Outcome State Fault Refusal :=
  .fault (.cardOverflow { s with fault := .cardOverflow })

/-- card_append(v, end) where the string is not full (44_card_record.md R211). -/
def State.cardAppend (v : Nibble) (stop : Nat) (s : State) : State :=
  { s with cardBuf := s.cardBuf.set s.cardLen v, cardLen := s.cardLen + 1, cardEnd := stop }

/-- The `end` field of a flushed record: a draw when the string is empty (44_card_record.md R213, R214; log entry 5). -/
def State.flushEnd (s : State) : Nat := if s.cardLen = 0 then drawIndex s.params s.draws else s.cardEnd

/-- flush(cause) (44_card_record.md R213). Every flush moves the draw counter on. -/
def State.flush (cause : Cause) (s : State) : State :=
  let t := s.emit (.card { cause := cause, start := s.cardStart, stop := s.flushEnd, n := s.cardLen
                           digits := s.cardBuf.take s.cardLen })
  { t with cardStartV := false, cardLen := 0, draws := s.draws + 1 }

/-! ### Resets -/

/-- The per-packet full reset (41_frame_fsm.md R158). -/
def State.fullReset (s : State) : State :=
  { s with state := .leadIn, bitcnt := 0, digitStartV := false, cardStartV := false, cardLen := 0, lrcAcc := 0#4
           seenBegin := false }

/-- The hardware reset with a legal configuration (70_reset_and_hazards.md R280). The registers it leaves unspecified take
fresh draws (10_state.md R48; log entry 2). -/
def State.hardwareReset (c : Cfg) (s : State) : State :=
  { s with
    cfg := c, clkPrevV := false, phase := .waitCapture, state := .leadIn, bitcnt := 0, shreg := 0#5
    digitStartV := false, cardStartV := false, cardLen := 0, lrcAcc := 0#4, seenBegin := false
    clkPrev := drawBit s.draws, capIdx := drawIndex s.params (s.draws + 1), capBit := drawBit (s.draws + 2)
    digitStart := drawIndex s.params (s.draws + 3), cardStart := drawIndex s.params (s.draws + 4)
    cardEnd := drawIndex s.params (s.draws + 5), lrcExp := drawWord (s.draws + 6)
    cardBuf := drawCardBuf s.params (s.draws + 7), draws := s.draws + resetDraws s.params }

end Sys2Proof.Machine
end

