-- ==== Sys2Proof/Machine/Digits.lean ====
section
/-! DEFINITION. The operations on a digit's fifth bit in state Digits (41_frame_fsm.md R147 to R153): resolve the digit word,
then the branch, then the digit tail. Each takes the word's parity bit (and value, where the operation does not fix it) and
the bit's end. -/

namespace Sys2Proof.Machine

/-- DIG_BEGIN (41_frame_fsm.md R148). -/
def execDigBegin (p : Bool) (stop : Nat) (s : State) : Host.Outcome State Fault Refusal :=
  let t := (s.resolve (digitWord p codeBegin) stop).emitDig .beginDigit codeBegin stop
  .next (State.clearBuffer { t with seenBegin := true, cardStartV := false })

/-- DIG_SEPARATOR (41_frame_fsm.md R149). -/
def execDigSeparator (p : Bool) (stop : Nat) (s : State) : Host.Outcome State Fault Refusal :=
  let t := (s.resolve (digitWord p codeSeparator) stop).emitDig .separator codeSeparator stop
  .next (t.flush .separator).clearBuffer

/-- DIG_END (41_frame_fsm.md R150): `lrc_acc` already holds this digit when the expected LRC is computed. -/
def execDigEnd (p : Bool) (stop : Nat) (s : State) : Host.Outcome State Fault Refusal :=
  let t := ((s.resolve (digitWord p codeEnd) stop).emitDig .endDigit codeEnd stop).flush .endDigit
  .next (State.clearBuffer { t with lrcExp := lrcExpected t.lrcAcc, state := .lrc })

/-- DIG_DATA (41_frame_fsm.md R151). A full card string ends the run before anything of this digit is put out: CardOverflow
takes precedence over every output of its step (60_exceptions.md R257, R258 (c)). -/
def execDigData (v : Nibble) (p : Bool) (stop : Nat) (s : State) : Host.Outcome State Fault Refusal :=
  if s.cardFull then s.raiseCardOverflow
  else .next ((((s.resolve (digitWord p v) stop).emitDig .data v stop).cardAppend v stop).clearBuffer)

/-- DIG_UNKNOWN (41_frame_fsm.md R152). -/
def execDigUnknown (v : Nibble) (p : Bool) (stop : Nat) (s : State) : Host.Outcome State Fault Refusal :=
  .next ((s.resolve (digitWord p v) stop).emitDig .unknown v stop).clearBuffer

end Sys2Proof.Machine
end

