-- ==== Sys2Proof/Machine/Lead.lean ====
section
/-! DEFINITION. The Frame Decoder's operations that only count bits: the lead fields and the bits before a digit's fifth
(41_frame_fsm.md R144 to R146, R154, R156 to R158). Each runs in a bit step, after steps 1 to 3 of the per-bit update. -/

namespace Sys2Proof.Machine

/-- LEADIN_BIT (41_frame_fsm.md R144): nothing beyond steps 1 to 3. -/
def execLeadinBit (_stop : Nat) (s : State) : Host.Outcome State Fault Refusal := .next s

/-- LEADIN_END (41_frame_fsm.md R145). -/
def execLeadinEnd (stop : Nat) (s : State) : Host.Outcome State Fault Refusal :=
  let t := (s.emit (.mark { kind := .leadIn, start := s.digitStart, stop := stop })).clearBuffer
  .next { t with state := .digits }

/-- DIGITS_BIT (41_frame_fsm.md R146): nothing beyond steps 1 to 3. -/
def execDigitsBit (_stop : Nat) (s : State) : Host.Outcome State Fault Refusal := .next s

/-- LRC_BIT (41_frame_fsm.md R154): nothing beyond steps 1 to 3. -/
def execLrcBit (_stop : Nat) (s : State) : Host.Outcome State Fault Refusal := .next s

/-- LEADOUT_BIT (41_frame_fsm.md R156): nothing beyond steps 1 to 3. -/
def execLeadoutBit (_stop : Nat) (s : State) : Host.Outcome State Fault Refusal := .next s

/-- LEADOUT_END (41_frame_fsm.md R157), with the full reset (R158). -/
def execLeadoutEnd (stop : Nat) (s : State) : Host.Outcome State Fault Refusal :=
  .next (s.emit (.mark { kind := .leadOut, start := s.digitStart, stop := stop })).fullReset

end Sys2Proof.Machine
end

