-- ==== Sys2Proof/Machine/Lrc.lean ====
section
/-! DEFINITION. The LRC digit (41_frame_fsm.md R155, 43_lrc.md R193). -/

namespace Sys2Proof.Machine

/-- The LRC comparison: LRCERR on a mismatch, and nothing else (43_lrc.md R193). -/
def State.checkLrc (w : DigitWord) (stop : Nat) (s : State) : State :=
  if lrcOk w s.lrcExp then s else s.emit (.lrcerr { start := s.digitStart, stop := stop })

/-- LRC_DIGIT (41_frame_fsm.md R155): compare, resolve, emit the digit, digit tail, go to LeadOut. -/
def execLrcDigit (w : DigitWord) (stop : Nat) (s : State) : Host.Outcome State Fault Refusal :=
  let t := (((s.checkLrc w stop).resolve w stop).emitDig .lrc (wordValue w) stop).clearBuffer
  .next { t with state := .leadOut }

end Sys2Proof.Machine
end

