-- ==== Sys2Proof/Machine/Sampler.lean ====
section
/-! DEFINITION. The operations a step performs: the hardware reset (70_reset_and_hazards.md R280) and the Bit Sampler's
(40_bit_sampler.md R120 to R128). -/

namespace Sys2Proof.Machine

/-- RESET (70_reset_and_hazards.md R280): refused where a lead length is 0. Nothing is emitted, the sample port is not read,
and the `fault` mark stays. -/
def execReset (cfg : Cfg) (s : State) : Host.Outcome State Fault Refusal :=
  if cfg.legal then .next (s.beginStep.hardwareReset cfg) else .refused .illegalConfig

/-- SMP_NONE (40_bit_sampler.md R127). -/
def execSmpNone (s : State) : Host.Outcome State Fault Refusal := .next s.beginStep

/-- SMP_SEED (40_bit_sampler.md R128). -/
def execSmpSeed (smp : Sample) (s : State) : Host.Outcome State Fault Refusal :=
  .next { s.beginStep with clkPrev := smp.clk, clkPrevV := true }

/-- SMP_CAPTURE (40_bit_sampler.md R123). -/
def execSmpCapture (smp : Sample) (s : State) : Host.Outcome State Fault Refusal :=
  .next { s.beginStep with capIdx := smp.idx, capBit := polmap s.cfg.pol smp.dat, phase := .waitUpdate, clkPrev := smp.clk }

/-- SMP_IGNORE (40_bit_sampler.md R126). -/
def execSmpIgnore (smp : Sample) (s : State) : Host.Outcome State Fault Refusal :=
  .next { s.beginStep with clkPrev := smp.clk }

/-- SMP_HOLD (40_bit_sampler.md R126). -/
def execSmpHold (smp : Sample) (s : State) : Host.Outcome State Fault Refusal :=
  .next { s.beginStep with clkPrev := smp.clk }

/-- Perform a Frame Decoder operation in a bit step that ends at `stop`. -/
def runFrameOp (stop : Nat) (op : FrameOp) (s : State) : Host.Outcome State Fault Refusal :=
  match op with
  | .leadinBit => execLeadinBit stop s
  | .leadinEnd => execLeadinEnd stop s
  | .digitsBit => execDigitsBit stop s
  | .digBegin p => execDigBegin p stop s
  | .digSeparator p => execDigSeparator p stop s
  | .digEnd p => execDigEnd p stop s
  | .digData v p => execDigData v p stop s
  | .digUnknown v p => execDigUnknown v p stop s
  | .lrcBit => execLrcBit stop s
  | .lrcDigit w => execLrcDigit w stop s
  | .leadoutBit => execLeadoutBit stop s
  | .leadoutEnd => execLeadoutEnd stop s

/-- per_bit_update(value, start, end) (41_frame_fsm.md R140): steps 1 to 3, then the operation they select. -/
def perBitUpdate (value : Bool) (start stop : Nat) (s : State) : Host.Outcome State Fault Refusal :=
  let t := s.takeBit value start stop
  runFrameOp stop (decodeFrame (t.bitSel stop)) t

/-- The Bit Sampler's own writes at an update edge (40_bit_sampler.md R124). The per-bit update neither reads nor writes
`clk_prev`, which R120 writes last. -/
def State.closeBit (smp : Sample) (s : State) : State := { s.beginStep with phase := .waitCapture, clkPrev := smp.clk }

/-- SMP_UPDATE (40_bit_sampler.md R124): the bit captured before is delivered to the Frame Decoder in this step. -/
def execSmpUpdate (smp : Sample) (s : State) : Host.Outcome State Fault Refusal :=
  perBitUpdate s.capBit s.capIdx smp.idx (s.closeBit smp)

end Sys2Proof.Machine
end

