-- ==== Sys2Proof/Machine/Dispatch.lean ====
section
/-! DEFINITION. Which meaning each operation has: one arm per constructor of `Instr`. -/

namespace Sys2Proof.Machine

-- The meaning of every operation of spec/opcode_table.json.
def exec (i : Instr) (s : State) : Host.Outcome State Fault Refusal :=
  match i with
  | .reset cfg => Sys2Proof.Machine.execReset cfg s
  | .smpNone => Sys2Proof.Machine.execSmpNone s
  | .smpSeed smp => Sys2Proof.Machine.execSmpSeed smp s
  | .smpCapture smp => Sys2Proof.Machine.execSmpCapture smp s
  | .smpIgnore smp => Sys2Proof.Machine.execSmpIgnore smp s
  | .smpUpdate smp => Sys2Proof.Machine.execSmpUpdate smp s
  | .smpHold smp => Sys2Proof.Machine.execSmpHold smp s
  | .leadinBit stop => Sys2Proof.Machine.execLeadinBit stop s
  | .leadinEnd stop => Sys2Proof.Machine.execLeadinEnd stop s
  | .digitsBit stop => Sys2Proof.Machine.execDigitsBit stop s
  | .digBegin p stop => Sys2Proof.Machine.execDigBegin p stop s
  | .digSeparator p stop => Sys2Proof.Machine.execDigSeparator p stop s
  | .digEnd p stop => Sys2Proof.Machine.execDigEnd p stop s
  | .digData v p stop => Sys2Proof.Machine.execDigData v p stop s
  | .digUnknown v p stop => Sys2Proof.Machine.execDigUnknown v p stop s
  | .lrcBit stop => Sys2Proof.Machine.execLrcBit stop s
  | .lrcDigit w stop => Sys2Proof.Machine.execLrcDigit w stop s
  | .leadoutBit stop => Sys2Proof.Machine.execLeadoutBit stop s
  | .leadoutEnd stop => Sys2Proof.Machine.execLeadoutEnd stop s

end Sys2Proof.Machine
end

