-- ==== Sys2Proof/Machine/Fetch.lean ====
section
/-! DEFINITION. What a step fetches: the operation its input and the sequencing state select; and how a digit word is placed
so that the next step completes it. -/

namespace Sys2Proof.Machine

/-- The operation the next step performs (30_encoding.md R95). -/
def State.fetch (s : State) : Instr := decode (.step s.stepSel)

/-- The input that makes the next step an update edge: the sample of index 1, at the level after the edge opposite to
CAPTURE_EDGE. -/
def State.updateInput (s : State) : Input :=
  { Input.idle with smpValid := true, smp := { idx := 1, clk := s.cfg.edge.opposite.levelAfter, dat := false } }

/-- The state in which the next step delivers the fifth bit of digit word `w` in state Digits: four bits stand in the shift
register, the fifth was captured at sample 0, and the update edge is the next input (log entry 9). -/
def State.placeDigit (w : DigitWord) (s : State) : State :=
  { s with
    inputs := s.updateInput :: s.inputs, clkPrev := s.cfg.edge.levelAfter, clkPrevV := true, phase := .waitUpdate
    capIdx := 0, capBit := wordParityBit w, state := .digits, bitcnt := 4, shreg := BitVec.append (wordValue w) 0#1 }

end Sys2Proof.Machine
end

