-- ==== Sys2Proof/Machine/Step.lean ====
section
/-! DEFINITION. One step: the processing of one input (00_scope.md R11, R16). -/

namespace Sys2Proof.Machine

/-- One step: the pending input is consumed and the operation it selects is performed (10_state.md R21, R22, 30_encoding.md
R95). With no input pending the operation is SMP_NONE (00_scope.md R7). -/
def step (s : State) : Host.Outcome State Fault Refusal := exec s.fetch s.popInput

/-- The table's digit word `w`, placed so that the next step completes it (log entry 9); a word with bits above bit 4 is no
digit word, and nothing is placed. -/
def State.withFetchWord (s : State) (_nbits w : Nat) : State :=
  match tableWord w with
  | .ok d => s.placeDigit d
  | .error _ => s

end Sys2Proof.Machine
end

