-- ==== Sys2Proof/Machine/Condition.lean ====
section
/-! DEFINITION. The error conditions (60_exceptions.md R251): their codes, and which of them a step's outcome reports. No
register holds them, and no operation reads them. -/

namespace Sys2Proof.Machine

/-- The conditions of 60_exceptions.md R251. -/
inductive Condition where
  | parityEven
  | parityFlagged
  | lrcMismatch
  | unknownDigit
  | streamExhausted
  | cardOverflow
  | illegalConfig
  deriving DecidableEq, Repr

/-- The code of a condition (60_exceptions.md R251). -/
def Condition.code : Condition → Nat
  | .parityEven => 1
  | .parityFlagged => 2
  | .lrcMismatch => 3
  | .unknownDigit => 4
  | .streamExhausted => 5
  | .cardOverflow => 6
  | .illegalConfig => 7

/-- The conditions that a step's output channels report: each by the record the table names. -/
def reported (b : Bundle) : List Condition :=
  (if b.par.any (fun o => !o.odd) then [.parityEven] else [])
    ++ (if b.perr.isSome then [.parityFlagged] else [])
    ++ (if b.lrcerr.isSome then [.lrcMismatch] else [])
    ++ (if b.dig.any (fun o => decide (o.role = .unknown)) then [.unknownDigit] else [])

/-- The conditions of a step's outcome. A condition that stops the run takes precedence over every output of its step
(60_exceptions.md R257, R258). -/
def conditions : Host.Outcome State Fault Refusal → List Condition
  | .next t => reported t.out
  | .fault (.cardOverflow _) => [.cardOverflow]
  | .refused r => if r = .illegalConfig then [.illegalConfig] else []

/-- The samples have stopped in mid-packet: bits, a captured bit or digits are still in flight (60_exceptions.md R255,
40_bit_sampler.md R130). -/
def State.exhausted (s : State) : Bool :=
  s.inputs.isEmpty && (decide (s.phase = .waitUpdate) || decide (s.state ≠ .leadIn) || decide (0 < s.bitcnt))

end Sys2Proof.Machine
end

