-- ==== Sys2Proof/Machine/Stimulus.lean ====
section
/-! DEFINITION. The spec's notation for input streams: directives, PACKET and the canonical waveform (30_encoding.md R96 to
R98). The block itself never reads it; it says which samples a logical bit stream becomes. -/

namespace Sys2Proof

/-- A directive of the packet notation (30_encoding.md R96). -/
inductive Directive where
  | bits (xs : List Bool)
  | fill (n : Nat) (x : Bool)
  | dig (v : Nibble)
  | digp (v : Nibble) (p : Bool)
  | lrc
  | lrcx (k : Nat)
  deriving DecidableEq, Repr

/-- A digit word's bits in the order they are sent: bit 0 first, the parity bit last (30_encoding.md R86). -/
def wordBits (w : DigitWord) : List Bool := [w.getLsbD 0, w.getLsbD 1, w.getLsbD 2, w.getLsbD 3, w.getLsbD 4]

/-- The logical bits of a list of directives (30_encoding.md R96). LRC and LRCX take their vector from `acc`, the exclusive or
of the values of the DIG and DIGP they cover. R96 has them cover every one "since the packet's `FILL` lead-in", and the notation
does not tell that FILL from another. DESIGN CHOICE (log entry 20): every FILL starts the cover again, wherever it stands. -/
def expand (acc : Nibble) : List Directive → List Bool
  | [] => []
  | .bits xs :: ds => xs ++ expand acc ds
  | .fill n x :: ds => List.replicate n x ++ expand 0#4 ds
  | .dig v :: ds => wordBits (digitWord (goodParityBit v) v) ++ expand (accumulate acc v) ds
  | .digp v p :: ds => wordBits (digitWord p v) ++ expand (accumulate acc v) ds
  | .lrc :: ds => wordBits (lrcExpected acc) ++ expand acc ds
  | .lrcx k :: ds => wordBits (lrcExpected acc ^^^ BitVec.twoPow 5 k) ++ expand acc ds

/-- PACKET(x1, ..., xm) for lead fields of the given lengths (30_encoding.md R97). -/
def packet (leadIn leadOut : Nat) (xs : List Nibble) : List Directive :=
  .fill leadIn false :: .dig codeBegin :: xs.map .dig ++ [.dig codeEnd, .lrc, .fill leadOut false]

/-- The clock's idle level: 1 where CAPTURE_EDGE is Falling (30_encoding.md R98). -/
def idleLevel (edge : Edge) : Bool := edge.opposite.levelAfter

/-- line(x) = x ^ (cfg_pol = Inverted) (30_encoding.md R98). -/
def lineLevel (pol : Polarity) (x : Bool) : Bool := x ^^ decide (pol = .inverted)

/-- The samples of the logical bits `xs`, the first of which is numbered `i`: a capture edge and an update edge for each
bit (30_encoding.md R98). -/
def waveFrom (edge : Edge) (pol : Polarity) : Nat → List Bool → List Sample
  | _, [] => []
  | i, x :: xs =>
      { idx := i, clk := !idleLevel edge, dat := lineLevel pol x }
        :: { idx := i + 1, clk := idleLevel edge, dat := lineLevel pol x } :: waveFrom edge pol (i + 2) xs

/-- The canonical waveform WAVE(cfg_edge, cfg_pol; x) (30_encoding.md R98). -/
def wave (edge : Edge) (pol : Polarity) (xs : List Bool) : List Sample :=
  { idx := 0, clk := idleLevel edge, dat := false } :: waveFrom edge pol 1 xs

/-- A sample as the input of a step: no reset (00_scope.md R17 (i)). -/
def Sample.present (s : Sample) : Input := { rst := false, cfg := Cfg.none, smpValid := true, smp := s }

end Sys2Proof
end

