-- ==== Sys2Proof/Safety.lean ====
section
/-! DEFINITION. What a run may be held to, in the terms the statements use: the end of a run, the host's duties, the
invariants of the block, and the relations between two blocks that the spec's duality and unobservability rules speak of. -/

namespace Sys2Proof.Machine

/-- A state that can be a good end state of a run: the `fault` mark is not set (10_state.md R51). -/
def State.goodEnd (s : State) : Bool := decide (s.fault = .clear)

/-- The host's duty on sample indices: each sample's index is above the one before, `last` being the index seen last, if any
(00_scope.md R17 (iv)). The block does not check it (60_exceptions.md R259). DESIGN CHOICE (log entry 19): a sample presented
in a reset step, which is not processed (70_reset_and_hazards.md R280), is no part of the duty: its index is compared with no
other. The spec does not say whether the duty covers it. -/
def indicesIncrease : Option Nat → List Input → Bool
  | _, [] => true
  | last, i :: is =>
      if i.smpValid && !i.rst then
        (match last with
          | none => true
          | some n => decide (n < i.smp.idx)) && indicesIncrease (some i.smp.idx) is
      else indicesIncrease last is

/-! ### Invariants -/

/-- The parameters are in their stated ranges (00_scope.md R8). -/
def ParamsLegal (s : State) : Prop := s.params.legal = true

/-- The latched configuration is legal and fits its registers (10_state.md R41, R42, R47). -/
def CfgLegal (s : State) : Prop := s.cfg.legal = true ∧ s.cfg.fits s.params = true

/-- The limit of `bitcnt` in each Decoder State (10_state.md R29). -/
def countLimit (s : State) : Nat :=
  match s.state with
  | .leadIn => s.cfg.leadIn
  | .digits => 5
  | .lrc => 5
  | .leadOut => s.cfg.leadOut

/-- `bitcnt` stays below its limit between steps (10_state.md R29). -/
def CountBelowLimit (s : State) : Prop := s.bitcnt < countLimit s

/-- The digit span is open exactly when the bit buffer holds a bit (10_state.md R31). -/
def DigitSpanOpen (s : State) : Prop := s.digitStartV = decide (0 < s.bitcnt)

/-- The card buffer has CARD_CAP elements and the string fits (10_state.md R34). -/
def CardFits (s : State) : Prop := s.cardBuf.length = s.params.cardCap ∧ s.cardLen ≤ s.params.cardCap

/-- Every index register fits TS_W bits (10_state.md R27, R31 to R33). -/
def IndicesFit (s : State) : Prop :=
  s.capIdx < 2 ^ s.params.tsW ∧ s.digitStart < 2 ^ s.params.tsW ∧ s.cardStart < 2 ^ s.params.tsW
    ∧ s.cardEnd < 2 ^ s.params.tsW

/-- While the sampler waits for the update edge, `clk_prev` holds the level after the capture edge
(40_bit_sampler.md R126 (d)). -/
def SamplerConsistent (s : State) : Prop :=
  s.phase = .waitUpdate → s.clkPrevV = true ∧ s.clkPrev = s.cfg.edge.levelAfter

/-- The per-packet registers fit the Decoder State: nothing is accumulated in LeadIn (41_frame_fsm.md R158), no card string
is pending in Lrc or LeadOut (44_card_record.md R218) or before a Begin (44_card_record.md R216), and in Lrc the expected
vector is that of the accumulator (41_frame_fsm.md R150). -/
def PacketConsistent (s : State) : Prop :=
  (s.state = .leadIn → s.lrcAcc = 0#4 ∧ s.seenBegin = false ∧ s.cardLen = 0)
    ∧ (s.state = .lrc ∨ s.state = .leadOut → s.cardLen = 0)
    ∧ (s.seenBegin = false → s.cardLen = 0)
    ∧ (s.state = .lrc → s.lrcExp = lrcExpected s.lrcAcc)

/-- The invariant of the block: all of the above. -/
structure Inv (s : State) : Prop where
  paramsLegal : ParamsLegal s
  cfgLegal : CfgLegal s
  countBelowLimit : CountBelowLimit s
  digitSpanOpen : DigitSpanOpen s
  cardFits : CardFits s
  indicesFit : IndicesFit s
  samplerConsistent : SamplerConsistent s
  packetConsistent : PacketConsistent s

/-! ### Outcomes and sequences of bits -/

/-- The outcome with its state, where it has one, changed by `f`. -/
def mapOutcome (f : State → State) : Host.Outcome State Fault Refusal → Host.Outcome State Fault Refusal
  | .next t => .next (f t)
  | .fault (.cardOverflow t) => .fault (.cardOverflow (f t))
  | .refused r => .refused r

/-- The state with its outputs left out. -/
def withoutOutput (s : State) : State := { s with out := noOutput, stream := [] }

/-- A bit as the sampler delivers it: its value and its span (00_scope.md R14). -/
structure BitSpan where
  val   : Bool
  start : Nat
  stop  : Nat
  deriving DecidableEq, Repr

/-- The BIT record of a delivered bit (45_annotation_output.md R234). -/
def BitSpan.record (b : BitSpan) : Record := { start := b.start, stop := b.stop, category := .bit, text := .bit b.val }

/-- The role of a digit of value `v` in state Digits (30_encoding.md R90). -/
def digitRole (seenBegin : Bool) (v : Nibble) : Role :=
  if v = codeBegin then .beginDigit
  else if v = codeSeparator then .separator
  else if v = codeEnd then .endDigit
  else if seenBegin then .data
  else .unknown

/-- Deliver bits to the Frame Decoder one after another, each in a step of its own, up to the first fault. -/
def deliver : List BitSpan → State → Host.Outcome State Fault Refusal
  | [], s => .next s
  | b :: bs, s =>
      match perBitUpdate b.val b.start b.stop s.beginStep with
      | .next t => deliver bs t
      | .fault r => .fault r
      | .refused r => .refused r

/-- The bits that the samples `waveFrom _ _ i xs` carry: bit k has span [i + 2k, i + 2k + 1) (30_encoding.md R98). -/
def waveBits : Nat → List Bool → List BitSpan
  | _, [] => []
  | i, x :: xs => { val := x, start := i, stop := i + 1 } :: waveBits (i + 2) xs

/-! ### The frame cycle -/

/-- The state after this one in the cycle LeadIn, Digits, Lrc, LeadOut (41_frame_fsm.md R159). -/
def nextFrame : FrameState → FrameState
  | .leadIn => .digits
  | .digits => .lrc
  | .lrc => .leadOut
  | .leadOut => .leadIn

/-! ### Polarity and data inversion (30_encoding.md R99) -/

/-- The other polarity. -/
def flipPol : Polarity → Polarity
  | .normal => .inverted
  | .inverted => .normal

/-- A configuration with the other polarity. -/
def dualCfg (c : Cfg) : Cfg := { c with pol := flipPol c.pol }

/-- An input with the other polarity on the configuration pin and the data level complemented. -/
def dualInput (i : Input) : Input := { i with cfg := dualCfg i.cfg, smp := { i.smp with dat := !i.smp.dat } }

/-- The block configured with the other polarity and given the complemented data levels. -/
def dual (s : State) : State := { s with cfg := dualCfg s.cfg, inputs := s.inputs.map dualInput }

/-! ### Registers that nothing reads before they are written (10_state.md R48) -/

/-- Two blocks that differ at most in the registers that 10_state.md R48 shows unobservable: each such register is the same
in both unless the condition under which the rule calls it unread holds. -/
structure Agree (s t : State) : Prop where
  params : s.params = t.params
  inputs : s.inputs = t.inputs
  clkPrevV : s.clkPrevV = t.clkPrevV
  clkPrev : s.clkPrevV = true → s.clkPrev = t.clkPrev
  phase : s.phase = t.phase
  captured : s.phase = .waitUpdate → s.capIdx = t.capIdx ∧ s.capBit = t.capBit
  state : s.state = t.state
  bitcnt : s.bitcnt = t.bitcnt
  shreg : s.shreg = t.shreg
  digitStartV : s.digitStartV = t.digitStartV
  digitStart : s.digitStartV = true → s.digitStart = t.digitStart
  cardStartV : s.cardStartV = t.cardStartV
  cardStart : s.cardStartV = true → s.cardStart = t.cardStart
  cardLen : s.cardLen = t.cardLen
  cardEnd : s.cardLen ≠ 0 → s.cardEnd = t.cardEnd
  cardBuf : s.cardBuf.take s.cardLen = t.cardBuf.take t.cardLen
  cardBufLength : s.cardBuf.length = t.cardBuf.length
  lrcAcc : s.lrcAcc = t.lrcAcc
  lrcExp : s.state = .lrc → s.lrcExp = t.lrcExp
  seenBegin : s.seenBegin = t.seenBegin
  cfg : s.cfg = t.cfg
  fault : s.fault = t.fault
  out : s.out = t.out
  stream : s.stream = t.stream
  draws : s.draws = t.draws

/-- Two outcomes that cannot be told apart: both go on with agreeing states, or both end in CardOverflow, or both are refused
for the same reason. -/
def AgreeOutcome : Host.Outcome State Fault Refusal → Host.Outcome State Fault Refusal → Prop
  | .next s, .next t => Agree s t
  | .fault _, .fault _ => True
  | .refused r, .refused r' => r = r'
  | _, _ => False

/-! ### Operands -/

/-- The ports of a block with parameters `p` can carry what the selector holds. -/
def selectorFits (p : Params) : Selector → Bool
  | .step d => d.cfg.fits p && p.fitsIndex d.smp.idx
  | .bit b => p.fitsIndex b.stop

/-! ### The parity records of a resolved digit (42_digit_resolution.md R172, R173) -/

/-- Under configuration `c` the digit `w` gets a PERR record: the policy is Flagged and the word is even. -/
def flagsParity (c : Cfg) (w : DigitWord) : Bool := decide (c.psev = .flagged) && !oddParity w

/-- The output channels `b` with PAR, and PERR where it is due, asserted over [start, stop). -/
def parityOut (c : Cfg) (w : DigitWord) (start stop : Nat) (b : Bundle) : Bundle :=
  { b with
    par := some { odd := oddParity w, start := start, stop := stop }
    perr := if flagsParity c w then some { start := start, stop := stop } else b.perr }

/-- The records PAR, and PERR where it is due, as they join the output stream. -/
def parityRecords (c : Cfg) (w : DigitWord) (start stop : Nat) : List Record :=
  { start := start, stop := stop, category := .parity, text := if oddParity w then .odd else .even }
    :: if flagsParity c w then
        [{ start := start, stop := stop, category := errorCategory c.fold, text := .parityError }]
      else []

/-! ### The spans of the bits (40_bit_sampler.md R129) -/

/-- The BIT records of an output stream. -/
def bitRecords (rs : List Record) : List Record := rs.filter (fun r => decide (r.category = .bit))

/-- The bits delivered so far have non-empty spans that follow one another, none ends after `last`, and a captured bit starts
after them and not after `last`. -/
def BitSpansOrdered (last : Nat) (s : State) : Prop :=
  (bitRecords s.stream).Pairwise (fun a b => a.stop ≤ b.start)
    ∧ (∀ r ∈ bitRecords s.stream, r.start < r.stop ∧ r.stop ≤ last)
    ∧ (s.phase = .waitUpdate → s.capIdx ≤ last ∧ ∀ r ∈ bitRecords s.stream, r.stop ≤ s.capIdx)

/-! ### The error-folding policy (10_state.md R46) -/

/-- The state with the other ERROR_FOLD value in the latch, and the given output stream. -/
def withFold (f : Fold) (recs : List Record) (s : State) : State := { s with cfg := { s.cfg with fold := f }, stream := recs }

/-! ### The operations of the DIGIT_WORD rows and the BIT rows -/

/-- The operations a bit step performs (30_encoding.md R95, the BIT and DIGIT_WORD rows). -/
def isFrameOp : Instr → Bool
  | .reset _ | .smpNone | .smpSeed _ | .smpCapture _ | .smpIgnore _ | .smpUpdate _ | .smpHold _ => false
  | .leadinBit _ | .leadinEnd _ | .digitsBit _ | .digBegin _ _ | .digSeparator _ _ | .digEnd _ _ | .digData _ _ _ => true
  | .digUnknown _ _ _ | .lrcBit _ | .lrcDigit _ _ | .leadoutBit _ | .leadoutEnd _ => true

end Sys2Proof.Machine
end

