-- ==== Sys2Proof/Certificates/Slice0/Obligations.lean ====
section
/-! DEFINITION. The statements for the provers. Each docstring names the rules of spec/ it formalises. `end` of the spec is
`stop` here. Where a statement gives the next state as an update of the old one, every field it does not name is unchanged:
that is the operation's frame. -/

open Sys2Proof Sys2Proof.Machine

/-! ## Encodings -/

/-- 30_encoding.md R95, R86: the encoder's selector decodes to the instruction it was made from, operands and all. -/
def Obligations.DecodeEncodeRoundTrip : Prop :=
  ∀ (p : Params) (i : Instr), i.wf p = true → decode (encode i) = i

/-- 30_encoding.md R95: whatever the ports can carry, the decoded operation is well formed. -/
def Obligations.DecodedOperationIsWellFormed : Prop :=
  ∀ (p : Params) (sel : Selector), selectorFits p sel = true → (decode sel).wf p = true

/-- The digit words of b, d, f, an Unknown 1, a Data 1 and a Data 12 with even parity, written out from 30_encoding.md R89
(p b3 b2 b1 b0), decode to their operations (R90). That a table word is read in state Digits with n = 5, seen_begin = 0 and end
index 0, so that the word of 1 is an Unknown digit there, and that a word with a sixth bit is rejected, is the model's choice
(log entry 9). -/
def Obligations.WrittenDigitWordsDecode : Prop :=
  decodeTableWord 8 0b01011 = some (.digBegin false 0)
    ∧ decodeTableWord 8 0b01101 = some (.digSeparator false 0)
    ∧ decodeTableWord 8 0b11111 = some (.digEnd true 0)
    ∧ decodeTableWord 8 0b00001 = some (.digUnknown 1#4 false 0)
    ∧ decode (digitSel true 0b00001#5 7) = .digData 1#4 false 7
    ∧ decode (digitSel true 0b01100#5 7) = .digData 12#4 false 7
    ∧ decodeTableWord 8 0b100000 = none

/-- 30_encoding.md R87 and R86: the value is b0 + 2·b1 + 4·b2 + 8·b3 and the parity bit is w[4]. -/
def Obligations.DigitValueIsWeightedSum : Prop :=
  ∀ w : DigitWord,
    (wordValue w).toNat
        = (w.getLsbD 0).toNat + 2 * (w.getLsbD 1).toNat + 4 * (w.getLsbD 2).toNat + 8 * (w.getLsbD 3).toNat
      ∧ wordParityBit w = w.getLsbD 4

/-- 30_encoding.md R89: for each value, the word with parity bit ~xor_reduce(v) has an odd number of ones, the word with the
other parity bit an even number, and both have that value. -/
def Obligations.OneWellFormedWordPerValue : Prop :=
  ∀ v : Nibble,
    oddParity (digitWord (goodParityBit v) v) = true ∧ oddParity (digitWord (!goodParityBit v) v) = false
      ∧ wordValue (digitWord (goodParityBit v) v) = v ∧ wordValue (digitWord (!goodParityBit v) v) = v

/-- 42_digit_resolution.md R172: the checker is the exclusive or of the five bits, which says whether their sum is odd. -/
def Obligations.ParityIsSumModTwo : Prop :=
  ∀ w : DigitWord,
    oddParity w = (w.getLsbD 0 ^^ w.getLsbD 1 ^^ w.getLsbD 2 ^^ w.getLsbD 3 ^^ w.getLsbD 4)
      ∧ oddParity w
          = decide (((w.getLsbD 0).toNat + (w.getLsbD 1).toNat + (w.getLsbD 2).toNat + (w.getLsbD 3).toNat
              + (w.getLsbD 4).toNat) % 2 = 1)

/-- 30_encoding.md R80 to R83, 45_annotation_output.md R230: the codes of `state`, the four configuration bits, `phase`, the
roles and the categories, and of `mark_kind` and `card_cause`. All codes of the one-bit values and of `state` are used, and the
default configuration has the codes 0, 1, 0, 0. -/
def Obligations.RegisterCodes : Prop :=
  (FrameState.leadIn.code = 0#2 ∧ FrameState.digits.code = 1#2 ∧ FrameState.lrc.code = 2#2 ∧ FrameState.leadOut.code = 3#2)
    ∧ (∀ c : BitVec 2, (FrameState.ofCode c).code = c)
    ∧ (Edge.falling.code = 0#1 ∧ Edge.rising.code = 1#1) ∧ (Polarity.normal.code = 0#1 ∧ Polarity.inverted.code = 1#1)
    ∧ (Severity.informational.code = 0#1 ∧ Severity.flagged.code = 1#1) ∧ (Fold.separate.code = 0#1 ∧ Fold.folded.code = 1#1)
    ∧ (∀ c : BitVec 1, (∃ e : Edge, e.code = c) ∧ (∃ p : Polarity, p.code = c) ∧ (∃ v : Severity, v.code = c)
        ∧ ∃ f : Fold, f.code = c)
    ∧ (Config.defaults.edge.code = 0#1 ∧ Config.defaults.pol.code = 1#1 ∧ Config.defaults.psev.code = 0#1
        ∧ Config.defaults.fold.code = 0#1)
    ∧ (Phase.waitCapture.code = 0#1 ∧ Phase.waitUpdate.code = 1#1)
    ∧ [Role.leadIn, .leadOut, .data, .beginDigit, .separator, .endDigit, .lrc, .unknown].map Role.code
        = [0#3, 1#3, 2#3, 3#3, 4#3, 5#3, 6#3, 7#3]
    ∧ [Category.bit, .leadInOut, .digit, .card, .parity, .lrc, .beginDigit, .separator, .endDigit, .unknown,
        .error].map Category.code = [0#4, 1#4, 2#4, 3#4, 4#4, 5#4, 6#4, 7#4, 8#4, 9#4, 10#4]
    ∧ (∀ c : Category, c.code.toNat ≤ 10)
    ∧ (MarkKind.leadIn.code = 0#1 ∧ MarkKind.leadOut.code = 1#1) ∧ (Cause.separator.code = 0#1 ∧ Cause.endDigit.code = 1#1)

/-- 30_encoding.md R88: the lowercase hex character of every value. -/
def Obligations.HexCharacters : Prop :=
  (List.range 16).map (fun v => hexChar (BitVec.ofNat 4 v))
    = ['0', '1', '2', '3', '4', '5', '6', '7', '8', '9', 'a', 'b', 'c', 'd', 'e', 'f']

/-- 45_annotation_output.md R230: digit i of a CARD record is in bits [4i+3:4i] of `card_d`. -/
def Obligations.CardDigitsArePackedInOrder : Prop :=
  ∀ (ds : List Nibble) (i : Nat) (d : Nibble), ds[i]? = some d → packDigits ds / 2 ^ (4 * i) % 16 = d.toNat

/-- 20_memory.md R62 (b), 10_state.md R30: five bits shifted in, first received first, stand in the shift register as
b0, b1, b2, b3, parity from bit 0 up, whatever it held before. -/
def Obligations.ShiftRegisterAssemblesDigit : Prop :=
  ∀ (w : DigitWord) (b0 b1 b2 b3 p : Bool),
    let r := shiftIn p (shiftIn b3 (shiftIn b2 (shiftIn b1 (shiftIn b0 w))))
    r.getLsbD 0 = b0 ∧ r.getLsbD 1 = b1 ∧ r.getLsbD 2 = b2 ∧ r.getLsbD 3 = b3 ∧ r.getLsbD 4 = p

/-! ## The step -/

/-- 00_scope.md R11, R16, 30_encoding.md R95: a step consumes the pending input and performs, whole, the one operation that
the selector's conditions select. -/
def Obligations.StepRunsDecodedOperation : Prop :=
  ∀ s : State, step s = exec (decode (.step s.stepSel)) { s with inputs := s.inputs.tail }

/-- 30_encoding.md R95: the operation a step performs is well formed for the block's parameters. -/
def Obligations.FetchedOperationIsWellFormed : Prop :=
  ∀ s : State, s.fetch.wf s.params = true

/-- 30_encoding.md R95 (the STEP rows) with 40_bit_sampler.md R121: which operation a step performs, for an input `i` as the
ports carry it. An edge is said by the two clock levels. -/
def Obligations.SamplerSelection : Prop :=
  ∀ (s : State) (i : Input) (rest : List Input), s.inputs = i :: rest →
    let smp := i.smp.onPort s.params
    let after := s.cfg.edge.levelAfter
    (i.rst = true → s.fetch = .reset (i.cfg.onPort s.params))
      ∧ (i.rst = false → i.smpValid = false → s.fetch = .smpNone)
      ∧ (i.rst = false → i.smpValid = true → s.clkPrevV = false → s.fetch = .smpSeed smp)
      ∧ (i.rst = false → i.smpValid = true → s.clkPrevV = true → s.phase = .waitCapture →
          s.fetch = if s.clkPrev = !after ∧ i.smp.clk = after then .smpCapture smp else .smpIgnore smp)
      ∧ (i.rst = false → i.smpValid = true → s.clkPrevV = true → s.phase = .waitUpdate →
          s.fetch = if s.clkPrev = after ∧ i.smp.clk = !after then .smpUpdate smp else .smpHold smp)

/-- 30_encoding.md R95 (the BIT and DIGIT_WORD rows), R90, R91 with 41_frame_fsm.md R140, R147: which operation a bit step's
selector `b` selects. -/
def Obligations.FrameSelection : Prop :=
  ∀ b : BitSel,
    let v := (wordValue b.w).toNat
    let p := wordParityBit b.w
    (b.state = .leadIn → decode (.bit b) = if b.n = b.leadIn then .leadinEnd b.stop else .leadinBit b.stop)
      ∧ (b.state = .digits → b.n ≠ 5 → decode (.bit b) = .digitsBit b.stop)
      ∧ (b.state = .digits → b.n = 5 → v = 11 → decode (.bit b) = .digBegin p b.stop)
      ∧ (b.state = .digits → b.n = 5 → v = 13 → decode (.bit b) = .digSeparator p b.stop)
      ∧ (b.state = .digits → b.n = 5 → v = 15 → decode (.bit b) = .digEnd p b.stop)
      ∧ (b.state = .digits → b.n = 5 → v ≠ 11 → v ≠ 13 → v ≠ 15 →
          decode (.bit b) = if b.seenBegin then .digData (wordValue b.w) p b.stop else .digUnknown (wordValue b.w) p b.stop)
      ∧ (b.state = .lrc → decode (.bit b) = if b.n = 5 then .lrcDigit b.w b.stop else .lrcBit b.stop)
      ∧ (b.state = .leadOut → decode (.bit b) = if b.n = b.leadOut then .leadoutEnd b.stop else .leadoutBit b.stop)

/-- 40_bit_sampler.md R124, 41_frame_fsm.md R140: SMP_UPDATE sets `phase` and `clk_prev`, takes the captured bit through
steps 1 to 3 of the per-bit update, and then performs the operation that these select, in the same step. -/
def Obligations.BitStepRunsSelectedOperation : Prop :=
  ∀ (smp : Sample) (s : State),
    let t : State :=
      { s with
        phase := .waitCapture, clkPrev := smp.clk
        shreg := shiftIn s.capBit s.shreg, bitcnt := s.bitcnt + 1
        digitStart := bif s.digitStartV then s.digitStart else s.capIdx, digitStartV := true
        cardStart := bif s.cardStartV then s.cardStart else s.capIdx, cardStartV := true
        out := { noOutput with bit := some { val := s.capBit, start := s.capIdx, stop := smp.idx } }
        stream := s.stream ++ [{ start := s.capIdx, stop := smp.idx, category := .bit, text := .bit s.capBit }] }
    exec (.smpUpdate smp) s = exec (decode (.bit (t.bitSel smp.idx))) t

/-- 00_scope.md R7, 93_implementation_defined.md I13: with no input pending, a step holds every register and emits
nothing. -/
def Obligations.NoInputHoldsState : Prop :=
  ∀ s : State, s.inputs = [] → step s = .next { s with out := noOutput }

/-! ## Reset -/

/-- 70_reset_and_hazards.md R280: a reset input selects RESET whatever the sample port carries; with a legal configuration
RESET latches it and gives every register its reset value, or any value of its width where that is unspecified
(10_state.md R48); with an illegal one it is refused. Nothing is emitted and the `fault` mark stays. `draws` is the model's own
counter of free values (log entry 2); nothing is said of it. -/
def Obligations.ResetEffect : Prop :=
  (∀ s : State, s.port.rst = true → s.fetch = .reset s.port.cfg)
    ∧ (∀ (cfg : Cfg) (s : State), 1 ≤ cfg.leadIn → 1 ≤ cfg.leadOut →
        ∃ (clkPrev capBit : Bool) (capIdx digitStart cardStart cardEnd draws : Nat) (lrcExp : DigitWord)
          (cardBuf : List Nibble),
          capIdx < 2 ^ s.params.tsW ∧ digitStart < 2 ^ s.params.tsW ∧ cardStart < 2 ^ s.params.tsW
            ∧ cardEnd < 2 ^ s.params.tsW ∧ cardBuf.length = s.params.cardCap
            ∧ exec (.reset cfg) s = .next
              { s with
                cfg := cfg, clkPrevV := false, phase := .waitCapture, state := .leadIn, bitcnt := 0, shreg := 0#5
                digitStartV := false, cardStartV := false, cardLen := 0, lrcAcc := 0#4, seenBegin := false
                clkPrev := clkPrev, capIdx := capIdx, capBit := capBit, digitStart := digitStart, cardStart := cardStart
                cardEnd := cardEnd, lrcExp := lrcExp, cardBuf := cardBuf, draws := draws, out := noOutput })
    ∧ ∀ (cfg : Cfg) (s : State), cfg.leadIn = 0 ∨ cfg.leadOut = 0 → exec (.reset cfg) s = .refused .illegalConfig

/-- 60_exceptions.md R256 (10_state.md R47): a reset step with a lead length of 0 is refused. -/
def Obligations.ResetRefusesZeroLength : Prop :=
  ∀ s : State, s.port.rst = true → s.port.cfg.leadIn = 0 ∨ s.port.cfg.leadOut = 0 → step s = .refused .illegalConfig

/-- 10_state.md R48, 70_reset_and_hazards.md R281: the registers whose reset value the spec states, in any launch; and
`State.reset` is the launch with the default configuration (00_scope.md R8). That it takes CARD_CAP = 32 and the other
parameters of log entry 3 is the model's choice; nothing here rests on them. -/
def Obligations.LaunchRegisters : Prop :=
  (∀ (p : Params) (c : Cfg),
    let s := State.launch p c
    s.clkPrevV = false ∧ s.phase = .waitCapture ∧ s.state = .leadIn ∧ s.bitcnt = 0 ∧ s.shreg = 0#5
      ∧ s.digitStartV = false ∧ s.cardStartV = false ∧ s.cardLen = 0 ∧ s.lrcAcc = 0#4 ∧ s.seenBegin = false
      ∧ s.cfg = c ∧ s.fault = .clear)
    ∧ ∃ p : Params, p.legal = true ∧ State.reset = State.launch p
        { leadIn := 10, leadOut := 10, edge := .falling, pol := .inverted, psev := .informational, fold := .separate }

/-- Every launch with legal parameters and a legal configuration that fits them meets the invariant; so does
`State.reset`. -/
def Obligations.LaunchMeetsInvariant : Prop :=
  (∀ (p : Params) (c : Cfg), p.legal = true → c.legal = true → c.fits p = true → Inv (State.launch p c)) ∧ Inv State.reset

/-! ## The Bit Sampler -/

/-- 40_bit_sampler.md R127: SMP_NONE writes no register and emits nothing. -/
def Obligations.SmpNoneHoldsState : Prop :=
  (∀ s : State, s.port.rst = false → s.port.smpValid = false → s.fetch = .smpNone)
    ∧ ∀ s : State, exec .smpNone s = .next { s with out := noOutput }

/-- 40_bit_sampler.md R128: the first sample after a reset only seeds `clk_prev`. -/
def Obligations.SmpSeedEffect : Prop :=
  (∀ s : State, s.port.rst = false → s.port.smpValid = true → s.clkPrevV = false → s.fetch = .smpSeed s.port.smp)
    ∧ ∀ (smp : Sample) (s : State),
        exec (.smpSeed smp) s = .next { s with clkPrev := smp.clk, clkPrevV := true, out := noOutput }

/-- 40_bit_sampler.md R123 with R125: SMP_CAPTURE takes the index and the mapped data level of the very sample that shows the
capture edge. -/
def Obligations.SmpCaptureEffect : Prop :=
  (∀ s : State, s.port.rst = false → s.port.smpValid = true → s.clkPrevV = true → s.phase = .waitCapture →
      detect s.clkPrev s.port.smp.clk = some s.cfg.edge → s.fetch = .smpCapture s.port.smp)
    ∧ ∀ (smp : Sample) (s : State),
        exec (.smpCapture smp) s = .next
          { s with
            capIdx := smp.idx, capBit := if s.cfg.pol = .inverted then !smp.dat else smp.dat, phase := .waitUpdate
            clkPrev := smp.clk, out := noOutput }

/-- 40_bit_sampler.md R126: a sample that is no qualifying edge writes `clk_prev` only and emits nothing. Case (d), a capture
edge while waiting for the update edge, does not arise in a state that meets the sampler's invariant, which a launch meets and
every step keeps: the rule derives this from R121 and R123. -/
def Obligations.NonEdgeWritesOnlyClkPrev : Prop :=
  (∀ s : State, s.port.rst = false → s.port.smpValid = true → s.clkPrevV = true → s.phase = .waitCapture →
      detect s.clkPrev s.port.smp.clk ≠ some s.cfg.edge → s.fetch = .smpIgnore s.port.smp)
    ∧ (∀ s : State, s.port.rst = false → s.port.smpValid = true → s.clkPrevV = true → s.phase = .waitUpdate →
      detect s.clkPrev s.port.smp.clk ≠ some s.cfg.edge.opposite → s.fetch = .smpHold s.port.smp)
    ∧ (∀ (smp : Sample) (s : State),
        exec (.smpIgnore smp) s = .next { s with clkPrev := smp.clk, out := noOutput }
          ∧ exec (.smpHold smp) s = .next { s with clkPrev := smp.clk, out := noOutput })
    ∧ (∀ (s : State) (level : Bool), SamplerConsistent s → s.phase = .waitUpdate → detect s.clkPrev level ≠ some s.cfg.edge)
    ∧ (∀ (p : Params) (c : Cfg), SamplerConsistent (State.launch p c))
    ∧ ∀ s t : State, SamplerConsistent s → step s = .next t → SamplerConsistent t

/-- 40_bit_sampler.md R124, 41_frame_fsm.md R140, R141, 10_state.md R49: unless the bit completes a Data digit with a full
card string, SMP_UPDATE goes on; it emits BIT over [cap_idx, smp_idx), waits for a capture edge again, and leaves the rest of
the session state as it was. -/
def Obligations.SmpUpdateCompletes : Prop :=
  ∀ (smp : Sample) (s : State),
    ¬(s.state = .digits ∧ s.bitcnt = 4 ∧ s.seenBegin = true ∧ s.cardLen = s.params.cardCap
        ∧ nonControl (wordValue (shiftIn s.capBit s.shreg)) = true) →
      ∃ t, exec (.smpUpdate smp) s = .next t
        ∧ t.phase = .waitCapture ∧ t.clkPrev = smp.clk ∧ t.clkPrevV = s.clkPrevV ∧ t.capIdx = s.capIdx
        ∧ t.capBit = s.capBit ∧ t.cfg = s.cfg ∧ t.params = s.params ∧ t.inputs = s.inputs ∧ t.fault = s.fault
        ∧ t.shreg = shiftIn s.capBit s.shreg
        ∧ t.out.bit = some { val := s.capBit, start := s.capIdx, stop := smp.idx }

/-- 44_card_record.md R212, 60_exceptions.md R257: SMP_UPDATE ends the run in CardOverflow, with the mark set, where the bit
completes a digit of a non-control value after a Begin and the card string is full. -/
def Obligations.SmpUpdateOverflows : Prop :=
  ∀ (smp : Sample) (s : State),
    s.state = .digits → s.bitcnt = 4 → s.seenBegin = true → s.cardLen = s.params.cardCap →
      nonControl (wordValue (shiftIn s.capBit s.shreg)) = true →
        ∃ t, exec (.smpUpdate smp) s = .fault (.cardOverflow t) ∧ t.fault = .cardOverflow

/-! ## The Frame Decoder's operations -/

/-- 41_frame_fsm.md R144, R146, R154, R156: the operations that only count do nothing beyond steps 1 to 3 of the per-bit
update. -/
def Obligations.CountingOperationsWriteNothing : Prop :=
  ∀ (stop : Nat) (s : State),
    exec (.leadinBit stop) s = .next s ∧ exec (.digitsBit stop) s = .next s ∧ exec (.lrcBit stop) s = .next s
      ∧ exec (.leadoutBit stop) s = .next s

/-- 41_frame_fsm.md R140 to R144, R146, R154, R156: a bit step in which the count does not reach its limit does steps 1 to 3
and nothing else, whatever the bit's value. -/
def Obligations.BitBelowLimitOnlyCounts : Prop :=
  ∀ (smp : Sample) (s : State), s.bitcnt + 1 < countLimit s →
    exec (.smpUpdate smp) s = .next
      { s with
        phase := .waitCapture, clkPrev := smp.clk
        shreg := shiftIn s.capBit s.shreg, bitcnt := s.bitcnt + 1
        digitStart := bif s.digitStartV then s.digitStart else s.capIdx, digitStartV := true
        cardStart := bif s.cardStartV then s.cardStart else s.capIdx, cardStartV := true
        out := { noOutput with bit := some { val := s.capBit, start := s.capIdx, stop := smp.idx } }
        stream := s.stream ++ [{ start := s.capIdx, stop := smp.idx, category := .bit, text := .bit s.capBit }] }

/-- 41_frame_fsm.md R145: LEADIN_END. -/
def Obligations.LeadinEndEffect : Prop :=
  (∀ b : BitSel, b.state = .leadIn → b.n = b.leadIn → decode (.bit b) = .leadinEnd b.stop)
    ∧ ∀ (stop : Nat) (s : State),
        exec (.leadinEnd stop) s = .next
          { s with
            out := { s.out with mark := some { kind := .leadIn, start := s.digitStart, stop := stop } }
            stream := s.stream ++ [{ start := s.digitStart, stop := stop, category := .leadInOut, text := .marker .leadIn }]
            bitcnt := 0, digitStartV := false, state := .digits }

/-- 41_frame_fsm.md R157 with the full reset of R158: LEADOUT_END. `card_end`, `shreg`, `lrc_exp`, the Bit Sampler and the
configuration are not written. -/
def Obligations.LeadoutEndEffect : Prop :=
  (∀ b : BitSel, b.state = .leadOut → b.n = b.leadOut → decode (.bit b) = .leadoutEnd b.stop)
    ∧ ∀ (stop : Nat) (s : State),
        exec (.leadoutEnd stop) s = .next
          { s with
            out := { s.out with mark := some { kind := .leadOut, start := s.digitStart, stop := stop } }
            stream := s.stream ++ [{ start := s.digitStart, stop := stop, category := .leadInOut, text := .marker .leadOut }]
            state := .leadIn, bitcnt := 0, digitStartV := false, cardStartV := false, cardLen := 0, lrcAcc := 0#4
            seenBegin := false }

/-- 41_frame_fsm.md R148: DIG_BEGIN, whatever `seen_begin` is. The card string is kept. -/
def Obligations.DigBeginEffect : Prop :=
  (∀ b : BitSel, b.state = .digits → b.n = 5 → (wordValue b.w).toNat = 11 →
      decode (.bit b) = .digBegin (wordParityBit b.w) b.stop)
    ∧ ∀ (p : Bool) (stop : Nat) (s : State),
        exec (.digBegin p stop) s = .next
          { s with
            lrcAcc := s.lrcAcc ^^^ 11#4, seenBegin := true, cardStartV := false, bitcnt := 0, digitStartV := false
            out := { parityOut s.cfg (digitWord p 11#4) s.digitStart stop s.out with
                     dig := some { role := .beginDigit, val := 11#4, start := s.digitStart, stop := stop } }
            stream := s.stream ++ parityRecords s.cfg (digitWord p 11#4) s.digitStart stop
              ++ [{ start := s.digitStart, stop := stop, category := .beginDigit, text := .hex 11#4 }] }

/-- 41_frame_fsm.md R149 with 44_card_record.md R213, R214: DIG_SEPARATOR, whatever `seen_begin` is. `free`, any index, is
the `end` of an empty flush; `draws` is the model's own counter (log entry 2), of which nothing is said. -/
def Obligations.DigSeparatorEffect : Prop :=
  (∀ b : BitSel, b.state = .digits → b.n = 5 → (wordValue b.w).toNat = 13 →
      decode (.bit b) = .digSeparator (wordParityBit b.w) b.stop)
    ∧ ∀ (p : Bool) (stop : Nat) (s : State), ∃ free draws : Nat, free < 2 ^ s.params.tsW ∧
        exec (.digSeparator p stop) s = .next
          { s with
            lrcAcc := s.lrcAcc ^^^ 13#4, cardStartV := false, cardLen := 0, bitcnt := 0, digitStartV := false
            draws := draws
            out := { parityOut s.cfg (digitWord p 13#4) s.digitStart stop s.out with
                     dig := some { role := .separator, val := 13#4, start := s.digitStart, stop := stop }
                     card := some { cause := .separator, start := s.cardStart
                                    stop := if 0 < s.cardLen then s.cardEnd else free
                                    n := s.cardLen, digits := s.cardBuf.take s.cardLen } }
            stream := s.stream ++ parityRecords s.cfg (digitWord p 13#4) s.digitStart stop
              ++ [{ start := s.digitStart, stop := stop, category := .separator, text := .hex 13#4 },
                  { start := s.cardStart, stop := if 0 < s.cardLen then s.cardEnd else free
                    category := .card
                    text := if 0 < s.cardLen then .card (s.cardBuf.take s.cardLen) else .noData }] }

/-- 41_frame_fsm.md R150 with 44_card_record.md R213, R214 and 43_lrc.md R192: DIG_END. The expected LRC is computed from the
accumulator that already holds this digit; no other operation of a session writes it or enters Lrc. `free` and `draws` are as
for DIG_SEPARATOR. -/
def Obligations.DigEndEffect : Prop :=
  (∀ b : BitSel, b.state = .digits → b.n = 5 → (wordValue b.w).toNat = 15 →
      decode (.bit b) = .digEnd (wordParityBit b.w) b.stop)
    ∧ (∀ (p : Bool) (stop : Nat) (s : State), ∃ free draws : Nat, free < 2 ^ s.params.tsW ∧
        exec (.digEnd p stop) s = .next
          { s with
            lrcAcc := s.lrcAcc ^^^ 15#4, lrcExp := lrcExpected (s.lrcAcc ^^^ 15#4), state := .lrc
            cardStartV := false, cardLen := 0, bitcnt := 0, digitStartV := false, draws := draws
            out := { parityOut s.cfg (digitWord p 15#4) s.digitStart stop s.out with
                     dig := some { role := .endDigit, val := 15#4, start := s.digitStart, stop := stop }
                     card := some { cause := .endDigit, start := s.cardStart
                                    stop := if 0 < s.cardLen then s.cardEnd else free
                                    n := s.cardLen, digits := s.cardBuf.take s.cardLen } }
            stream := s.stream ++ parityRecords s.cfg (digitWord p 15#4) s.digitStart stop
              ++ [{ start := s.digitStart, stop := stop, category := .endDigit, text := .hex 15#4 },
                  { start := s.cardStart, stop := if 0 < s.cardLen then s.cardEnd else free
                    category := .card
                    text := if 0 < s.cardLen then .card (s.cardBuf.take s.cardLen) else .noData }] })
    ∧ ∀ s t : State, s.port.rst = false → step s = .next t →
        t.lrcExp ≠ s.lrcExp ∨ (s.state ≠ .lrc ∧ t.state = .lrc) →
          (∃ smp, s.fetch = .smpUpdate smp) ∧ s.state = .digits ∧ s.bitcnt = 4
            ∧ wordValue (shiftIn s.capBit s.shreg) = 15#4

/-- 41_frame_fsm.md R151 with 44_card_record.md R211, R212: DIG_DATA appends its value while the string is not full, and
raises CardOverflow when it is. -/
def Obligations.DigDataEffect : Prop :=
  (∀ b : BitSel, b.state = .digits → b.n = 5 → nonControl (wordValue b.w) = true → b.seenBegin = true →
      decode (.bit b) = .digData (wordValue b.w) (wordParityBit b.w) b.stop)
    ∧ (∀ (v : Nibble) (p : Bool) (stop : Nat) (s : State), s.cardLen ≠ s.params.cardCap →
        exec (.digData v p stop) s = .next
          { s with
            lrcAcc := s.lrcAcc ^^^ v, cardBuf := s.cardBuf.set s.cardLen v, cardLen := s.cardLen + 1, cardEnd := stop
            bitcnt := 0, digitStartV := false
            out := { parityOut s.cfg (digitWord p v) s.digitStart stop s.out with
                     dig := some { role := .data, val := v, start := s.digitStart, stop := stop } }
            stream := s.stream ++ parityRecords s.cfg (digitWord p v) s.digitStart stop
              ++ [{ start := s.digitStart, stop := stop, category := .digit, text := .hex v }] })
    ∧ ∀ (v : Nibble) (p : Bool) (stop : Nat) (s : State), s.cardLen = s.params.cardCap →
        ∃ t, exec (.digData v p stop) s = .fault (.cardOverflow t) ∧ t.fault = .cardOverflow

/-- 44_card_record.md R211, 10_state.md R34: DIG_DATA stores its value at index `card_len` and leaves every other element of
the card buffer as it was; the element is there when the string is not full. -/
def Obligations.DigDataStoresOneElement : Prop :=
  ∀ (v : Nibble) (p : Bool) (stop : Nat) (s t : State), CardFits s → exec (.digData v p stop) s = .next t →
    t.cardBuf[s.cardLen]? = some v ∧ (∀ j, j ≠ s.cardLen → t.cardBuf[j]? = s.cardBuf[j]?)
      ∧ t.cardBuf.take t.cardLen = s.cardBuf.take s.cardLen ++ [v]

/-- 41_frame_fsm.md R152: DIG_UNKNOWN. The card record is not touched. -/
def Obligations.DigUnknownEffect : Prop :=
  (∀ b : BitSel, b.state = .digits → b.n = 5 → nonControl (wordValue b.w) = true → b.seenBegin = false →
      decode (.bit b) = .digUnknown (wordValue b.w) (wordParityBit b.w) b.stop)
    ∧ ∀ (v : Nibble) (p : Bool) (stop : Nat) (s : State),
        exec (.digUnknown v p stop) s = .next
          { s with
            lrcAcc := s.lrcAcc ^^^ v, bitcnt := 0, digitStartV := false
            out := { parityOut s.cfg (digitWord p v) s.digitStart stop s.out with
                     dig := some { role := .unknown, val := v, start := s.digitStart, stop := stop } }
            stream := s.stream ++ parityRecords s.cfg (digitWord p v) s.digitStart stop
              ++ [{ start := s.digitStart, stop := stop
                    category := if s.cfg.fold = .folded then .error else .unknown, text := .hex v }] }

/-- 41_frame_fsm.md R155 with 43_lrc.md R193: LRC_DIGIT. -/
def Obligations.LrcDigitEffect : Prop :=
  (∀ b : BitSel, b.state = .lrc → b.n = 5 → decode (.bit b) = .lrcDigit b.w b.stop)
    ∧ ∀ (w : DigitWord) (stop : Nat) (s : State),
        exec (.lrcDigit w stop) s = .next
          { s with
            lrcAcc := s.lrcAcc ^^^ wordValue w, bitcnt := 0, digitStartV := false, state := .leadOut
            out := { parityOut s.cfg w s.digitStart stop s.out with
                     lrcerr := if w = s.lrcExp then s.out.lrcerr else some { start := s.digitStart, stop := stop }
                     dig := some { role := .lrc, val := wordValue w, start := s.digitStart, stop := stop } }
            stream := s.stream
              ++ (if w = s.lrcExp then []
                  else [{ start := s.digitStart, stop := stop, category := errorCategory s.cfg.fold, text := .lrcError }])
              ++ parityRecords s.cfg w s.digitStart stop
              ++ [{ start := s.digitStart, stop := stop, category := .lrc, text := .hex (wordValue w) }] }

/-! ## LRC -/

/-- 43_lrc.md R191: bit i of the accumulator is the sum mod 2 of bit i over the list of values, and the order of the list
does not matter. -/
def Obligations.AccumulatorIsPerBitParity : Prop :=
  (∀ (l : List Nibble) (i : Nat), i < 4 →
      (l.foldl accumulate 0#4).getLsbD i = decide ((l.countP (fun v => v.getLsbD i)) % 2 = 1))
    ∧ ∀ l l' : List Nibble, l.Perm l' → l.foldl accumulate 0#4 = l'.foldl accumulate 0#4

/-- 43_lrc.md R192: bits 0 to 3 are the accumulator's, bit 4 makes the five odd. -/
def Obligations.ExpectedLrcIsOddWord : Prop :=
  ∀ a : Nibble,
    (lrcExpected a).getLsbD 0 = a.getLsbD 0 ∧ (lrcExpected a).getLsbD 1 = a.getLsbD 1
      ∧ (lrcExpected a).getLsbD 2 = a.getLsbD 2 ∧ (lrcExpected a).getLsbD 3 = a.getLsbD 3
      ∧ oddParity (lrcExpected a) = true

/-- 43_lrc.md R195: an LRC digit that differs from the expected vector in exactly one bit k is reported by one LRCERR, has
even parity (and a PERR under the flagged policy), is emitted with the value received, which is the expected one only for
k = 4, and LeadOut follows as always. -/
def Obligations.LrcSingleBitCorruption : Prop :=
  ∀ (a : Nibble) (k stop : Nat) (s : State), k < 5 → s.lrcExp = lrcExpected a →
    let w := s.lrcExp ^^^ BitVec.twoPow 5 k
    ∃ t, exec (.lrcDigit w stop) s = .next t
      ∧ t.out.lrcerr = some { start := s.digitStart, stop := stop }
      ∧ t.out.par = some { odd := false, start := s.digitStart, stop := stop }
      ∧ t.out.perr = (if s.cfg.psev = .flagged then some { start := s.digitStart, stop := stop } else s.out.perr)
      ∧ t.out.dig = some { role := .lrc, val := wordValue w, start := s.digitStart, stop := stop }
      ∧ (wordValue w = wordValue s.lrcExp ↔ k = 4) ∧ t.state = .leadOut

/-! ## Output -/

/-- 45_annotation_output.md R233, R234, R231: what a step adds to the output stream is exactly its asserted channels, each
once, serialised, in the order BIT, MARK, LRCERR, PAR, PERR, DIG, CARD. -/
def Obligations.StreamGrowsByAssertedChannels : Prop :=
  ∀ s t : State, step s = .next t → t.stream = s.stream ++ t.out.emissions.map (serialise t.cfg.fold)

/-- 45_annotation_output.md R231, R232: only an SMP_UPDATE step emits, it always emits BIT, and the channels that can be valid
together are those the rule lists. -/
def Obligations.ChannelCombinations : Prop :=
  ∀ s t : State, step s = .next t →
    ((∀ smp, s.fetch ≠ .smpUpdate smp) → t.out = noOutput)
      ∧ ((∃ smp, s.fetch = .smpUpdate smp) → t.out.bit.isSome = true)
      ∧ (t.out.mark.isSome = true → t.out.par = none ∧ t.out.dig = none ∧ t.out.card = none ∧ t.out.lrcerr = none)
      ∧ t.out.par.isSome = t.out.dig.isSome
      ∧ (t.out.perr.isSome = true → s.cfg.psev = .flagged ∧ ∃ o, t.out.par = some o ∧ o.odd = false)
      ∧ (t.out.lrcerr.isSome = true → t.out.card = none ∧ ∃ o, t.out.dig = some o ∧ o.role = .lrc)
      ∧ (t.out.card.isSome = true → ∃ o, t.out.dig = some o ∧ (o.role = .separator ∨ o.role = .endDigit))
      ∧ (∀ o, t.out.dig = some o → o.role ≠ .leadIn ∧ o.role ≠ .leadOut)
      ∧ t.out.emissions.length ≤ 5

/-- 45_annotation_output.md R235: the category of each role and of the error records, under both policies. -/
def Obligations.CategorySelection : Prop :=
  (∀ f : Fold, roleCategory f .data = .digit ∧ roleCategory f .beginDigit = .beginDigit
      ∧ roleCategory f .separator = .separator ∧ roleCategory f .endDigit = .endDigit ∧ roleCategory f .lrc = .lrc)
    ∧ roleCategory .separate .unknown = .unknown ∧ roleCategory .folded .unknown = .error
    ∧ errorCategory .separate = .parity ∧ errorCategory .folded = .error

/-! ## The whole machine -/

/-- Every step keeps the invariant of the block: 10_state.md R29 (the count stays below its limit), R31, R34, R40, R47,
40_bit_sampler.md R126 (d), 44_card_record.md R216, R218. -/
def Obligations.StepKeepsInvariant : Prop :=
  ∀ s t : State, Inv s → step s = .next t → Inv t

/-- A step stops in two ways only: refused, by a reset with a zero lead length; or in CardOverflow with the mark set, in a bit
step that completes a non-control digit in state Digits after a Begin with the card string full (10_state.md R47, R51, 44_card_record.md R212,
60_exceptions.md R250, R251). -/
def Obligations.StepStopsOnlyAsStated : Prop :=
  ∀ s : State,
    (∃ t, step s = .next t)
      ∨ (step s = .refused .illegalConfig ∧ s.port.rst = true ∧ (s.port.cfg.leadIn = 0 ∨ s.port.cfg.leadOut = 0))
      ∨ (∃ t, step s = .fault (.cardOverflow t) ∧ t.fault = .cardOverflow ∧ (∃ smp, s.fetch = .smpUpdate smp)
          ∧ s.state = .digits ∧ s.bitcnt = 4 ∧ s.seenBegin = true ∧ s.cardLen = s.params.cardCap
          ∧ nonControl (wordValue (shiftIn s.capBit s.shreg)) = true)

/-- 41_frame_fsm.md R159: without a hardware reset, `state` moves to its successor in the bit step that reaches the count's
limit (in Digits: with a digit of value 15), and stays in every other step; a hardware reset goes to LeadIn. -/
def Obligations.FrameStateTransitions : Prop :=
  ∀ s t : State, step s = .next t →
    let moves := (∃ smp, s.fetch = .smpUpdate smp) ∧ s.bitcnt + 1 = countLimit s
      ∧ (s.state = .digits → wordValue (shiftIn s.capBit s.shreg) = 15#4)
    (s.port.rst = true → t.state = .leadIn)
      ∧ (s.port.rst = false → moves → t.state = nextFrame s.state)
      ∧ (s.port.rst = false → ¬moves → t.state = s.state)

/-- 10_state.md R40, 70_reset_and_hazards.md R294: only a hardware reset writes the configuration latch, and it copies the
pins; what the pins carry in any other step has no effect. No step changes the parameters (00_scope.md R8). -/
def Obligations.OnlyResetWritesConfiguration : Prop :=
  (∀ s t : State, step s = .next t → t.params = s.params ∧ t.cfg = if s.port.rst then s.port.cfg else s.cfg)
    ∧ ∀ (s : State) (i : Input) (rest : List Input) (c : Cfg), i.rst = false →
        step { s with inputs := { i with cfg := c } :: rest } = step { s with inputs := i :: rest }

/-- 10_state.md R51: a step that goes on, a reset included, neither sets nor clears the `fault` mark; a step that faults sets
it, and only a bit step that completes a Data digit with the card string full does so (44_card_record.md R212); a state with the mark set is no good end state. -/
def Obligations.FaultMarkIsSticky : Prop :=
  (∀ s t : State, step s = .next t → t.fault = s.fault)
    ∧ (∀ (s : State) (f : Fault), step s = .fault f →
        (∃ smp, s.fetch = .smpUpdate smp) ∧ s.state = .digits ∧ s.bitcnt = 4 ∧ s.seenBegin = true
          ∧ nonControl (wordValue (shiftIn s.capBit s.shreg)) = true ∧ s.cardLen = s.params.cardCap
          ∧ ∃ t, f = .cardOverflow t ∧ t.fault = .cardOverflow)
    ∧ ∀ s : State, s.fault = .cardOverflow → s.goodEnd = false

/-- 10_state.md R37: in a session only a Begin digit sets `seen_begin`, and only the full reset clears it. -/
def Obligations.SeenBeginIsSetByBegin : Prop :=
  ∀ s t : State, s.port.rst = false → step s = .next t →
    (s.seenBegin = false → t.seenBegin = true →
        (∃ smp, s.fetch = .smpUpdate smp) ∧ s.state = .digits ∧ s.bitcnt = 4
          ∧ wordValue (shiftIn s.capBit s.shreg) = 11#4)
      ∧ (s.seenBegin = true → t.seenBegin = false →
        (∃ smp, s.fetch = .smpUpdate smp) ∧ s.state = .leadOut ∧ s.bitcnt + 1 = s.cfg.leadOut)

/-- 44_card_record.md R216: before any Begin of the packet a Separator or End digit flushes the "No Data" form, which starts at
the `card_start` that is open. `PacketConsistent` is a part of the invariant that every step keeps. -/
def Obligations.FlushBeforeBeginIsNoData : Prop :=
  ∀ (p : Bool) (stop : Nat) (s : State), PacketConsistent s → s.seenBegin = false →
    ∀ i ∈ [Instr.digSeparator p stop, .digEnd p stop], ∃ (t : State) (o : CardOut),
      exec i s = .next t ∧ t.out.card = some o ∧ o.n = 0 ∧ o.digits = [] ∧ o.start = s.cardStart
        ∧ ∃ r, t.stream.getLast? = some r ∧ r.category = .card ∧ r.text = .noData ∧ r.start = s.cardStart

/-- 60_exceptions.md R252: an even-parity digit is dispatched by its value exactly as the odd one, and does the same but for
its records. The two words differ in the parity bit, w[4]. -/
def Obligations.ParityNeverChangesTheCourse : Prop :=
  ∀ (b : BitSel) (s : State), b.state = .digits →
    mapOutcome withoutOutput (exec (decode (.bit b)) s)
      = mapOutcome withoutOutput (exec (decode (.bit { b with w := b.w ^^^ 0b10000#5 })) s)

/-- 10_state.md R48 (I1, I2): the registers whose reset value is unspecified cannot be observed. Two blocks that differ only
in registers the rule calls unread put out the same and go on so. -/
def Obligations.UnwrittenRegistersAreUnobservable : Prop :=
  ∀ s t : State, Agree s t → AgreeOutcome (step s) (step t)

/-- 30_encoding.md R99: polarity and data inversion are dual. The block with the other polarity and complemented data levels
steps in parallel, outputs included. -/
def Obligations.PolarityDuality : Prop :=
  ∀ s : State, step (dual s) = mapOutcome dual (step s)

/-- 10_state.md R46: ERROR_FOLD changes no register and no channel; only the categories of the serialised records. -/
def Obligations.ErrorFoldChangesNoRegister : Prop :=
  ∀ (f : Fold) (recs : List Record) (s : State), s.port.rst = false →
    (∀ t, step s = .next t →
        step (withFold f recs s) = .next (withFold f (recs ++ t.out.emissions.map (serialise f)) t))
      ∧ ∀ r, step s = .fault r → ∃ r', step (withFold f recs s) = .fault r'

/-- 40_bit_sampler.md R129, 45_annotation_output.md R238: with strictly increasing sample indices (00_scope.md R17 (iv)) the
bits of a session have non-empty spans that do not overlap. `last` is the index of the sample before. -/
def Obligations.BitSpansNeverOverlap : Prop :=
  (∀ (p : Params) (c : Cfg) (last : Nat), BitSpansOrdered last (State.launch p c))
    ∧ ∀ (last : Nat) (s t : State), BitSpansOrdered last s → step s = .next t →
        (s.port.rst = false → s.port.smpValid = true → last < s.port.smp.idx → BitSpansOrdered s.port.smp.idx t)
          ∧ (s.port.rst = true ∨ s.port.smpValid = false → BitSpansOrdered last t)

/-! ## Runs of bits -/

/-- 41_frame_fsm.md R145, R160: LeadIn takes exactly LEAD_IN_LEN bits, whatever their values, and the marker spans them. -/
def Obligations.LeadInTakesExactlyItsLength : Prop :=
  ∀ (s : State) (bs : List BitSpan), s.state = .leadIn → s.bitcnt = 0 → s.digitStartV = false → 1 ≤ s.cfg.leadIn →
    bs.length ≤ s.cfg.leadIn →
      ∃ t, deliver bs s = .next t
        ∧ (bs.length < s.cfg.leadIn → t.state = .leadIn ∧ t.bitcnt = bs.length)
        ∧ (bs.length = s.cfg.leadIn → t.state = .digits ∧ t.bitcnt = 0 ∧ t.digitStartV = false
            ∧ ∀ b0 b1, bs.head? = some b0 → bs.getLast? = some b1 →
                t.out.mark = some { kind := .leadIn, start := b0.start, stop := b1.stop })

/-- 41_frame_fsm.md R157, R158, R160: LeadOut takes exactly LEAD_OUT_LEN bits, whatever their values; the marker spans them,
and the block is back in LeadIn with nothing accumulated. -/
def Obligations.LeadOutTakesExactlyItsLength : Prop :=
  ∀ (s : State) (bs : List BitSpan), s.state = .leadOut → s.bitcnt = 0 → s.digitStartV = false → 1 ≤ s.cfg.leadOut →
    bs.length ≤ s.cfg.leadOut →
      ∃ t, deliver bs s = .next t
        ∧ (bs.length < s.cfg.leadOut → t.state = .leadOut ∧ t.bitcnt = bs.length)
        ∧ (bs.length = s.cfg.leadOut → t.state = .leadIn ∧ t.bitcnt = 0 ∧ t.digitStartV = false ∧ t.cardStartV = false
            ∧ t.cardLen = 0 ∧ t.lrcAcc = 0#4 ∧ t.seenBegin = false
            ∧ ∀ b0 b1, bs.head? = some b0 → bs.getLast? = some b1 →
                t.out.mark = some { kind := .leadOut, start := b0.start, stop := b1.stop })

/-- 41_frame_fsm.md R161, 42_digit_resolution.md R170 to R173, 20_memory.md R62: in state Digits every five bits complete
exactly one digit, whose word has the bits in the order received and whose span runs from the first bit's start to the fifth's
end. The five steps together add to the output stream their five BIT records, the digit's parity records (one PAR, and PERR
where it is due), one DIG record, and one CARD record exactly when the value is 13 or 15, and nothing else. -/
def Obligations.FiveBitsCompleteOneDigit : Prop :=
  ∀ (s : State) (w : DigitWord) (b0 b1 b2 b3 b4 : BitSpan),
    s.state = .digits → s.bitcnt = 0 → s.digitStartV = false →
      b0.val = w.getLsbD 0 → b1.val = w.getLsbD 1 → b2.val = w.getLsbD 2 → b3.val = w.getLsbD 3 → b4.val = w.getLsbD 4 →
      ¬(s.seenBegin = true ∧ nonControl (wordValue w) = true ∧ s.cardLen = s.params.cardCap) →
        ∃ (t : State) (cards : List Record), deliver [b0, b1, b2, b3, b4] s = .next t
          ∧ t.stream = s.stream ++ [b0, b1, b2, b3, b4].map BitSpan.record
              ++ parityRecords s.cfg w b0.start b4.stop
              ++ [{ start := b0.start, stop := b4.stop
                    category := roleCategory s.cfg.fold (digitRole s.seenBegin (wordValue w)), text := .hex (wordValue w) }]
              ++ cards
          ∧ cards.length = (if wordValue w = 13#4 ∨ wordValue w = 15#4 then 1 else 0)
          ∧ (∀ c ∈ cards, c.category = .card)
          ∧ t.out.par = some { odd := oddParity w, start := b0.start, stop := b4.stop }
          ∧ t.out.dig = some { role := digitRole s.seenBegin (wordValue w), val := wordValue w, start := b0.start
                               stop := b4.stop }
          ∧ (t.out.card.isSome = true ↔ wordValue w = 13#4 ∨ wordValue w = 15#4)
          ∧ t.lrcAcc = s.lrcAcc ^^^ wordValue w ∧ t.bitcnt = 0 ∧ t.digitStartV = false
          ∧ t.state = (if wordValue w = 15#4 then .lrc else .digits)

/-- 30_encoding.md R98 with 40_bit_sampler.md R121 to R124: the canonical waveform delivers its logical bits. From a seeded
sampler that waits for a capture edge with the clock idle, two steps for each bit do to the block what the Frame Decoder does
with the bits x_k over [i + 2k, i + 2k + 1), up to the sampler's capture registers. -/
def Obligations.WaveformDeliversItsBits : Prop :=
  ∀ (s : State) (i : Nat) (xs : List Bool) (rest : List Input),
    s.clkPrevV = true → s.phase = .waitCapture → s.clkPrev = idleLevel s.cfg.edge →
      s.inputs = (waveFrom s.cfg.edge s.cfg.pol i xs).map Sample.present ++ rest → i + 2 * xs.length ≤ 2 ^ s.params.tsW →
        ∀ t, deliver (waveBits i xs) s = .next t →
          ∃ (ix : Nat) (b : Bool),
            Host.Core.run Sys2Proof.core (2 * xs.length) s = .next { t with inputs := rest, capIdx := ix, capBit := b }

/-- 30_encoding.md R99, R98: the two polarities' waveforms of one bit stream differ exactly in the data level of every sample
but the first. -/
def Obligations.WaveformsAreDual : Prop :=
  ∀ (e : Edge) (xs : List Bool),
    wave e .normal xs
      = (wave e .inverted xs).take 1 ++ ((wave e .inverted xs).drop 1).map (fun m => { m with dat := !m.dat })
end

