-- ==== Sys2Proof/Laws/State.lean ====
section
/-! SUPPORT. One lemma per field of State and named operation: what the operation leaves in the field. So no later proof unfolds
a record update. (Where an operation asserts channels only in some cases, what it leaves in `out` and `stream` is in
Laws/Ops.lean.) -/

namespace Sys2Proof.Machine

variable (s : State)

/-! ### popInput -/

@[simp] theorem State.popInput_params : s.popInput.params = s.params := rfl
@[simp] theorem State.popInput_inputs : s.popInput.inputs = s.inputs.tail := rfl
@[simp] theorem State.popInput_clkPrev : s.popInput.clkPrev = s.clkPrev := rfl
@[simp] theorem State.popInput_clkPrevV : s.popInput.clkPrevV = s.clkPrevV := rfl
@[simp] theorem State.popInput_phase : s.popInput.phase = s.phase := rfl
@[simp] theorem State.popInput_capIdx : s.popInput.capIdx = s.capIdx := rfl
@[simp] theorem State.popInput_capBit : s.popInput.capBit = s.capBit := rfl
@[simp] theorem State.popInput_state : s.popInput.state = s.state := rfl
@[simp] theorem State.popInput_bitcnt : s.popInput.bitcnt = s.bitcnt := rfl
@[simp] theorem State.popInput_shreg : s.popInput.shreg = s.shreg := rfl
@[simp] theorem State.popInput_digitStart : s.popInput.digitStart = s.digitStart := rfl
@[simp] theorem State.popInput_digitStartV : s.popInput.digitStartV = s.digitStartV := rfl
@[simp] theorem State.popInput_cardStart : s.popInput.cardStart = s.cardStart := rfl
@[simp] theorem State.popInput_cardStartV : s.popInput.cardStartV = s.cardStartV := rfl
@[simp] theorem State.popInput_cardEnd : s.popInput.cardEnd = s.cardEnd := rfl
@[simp] theorem State.popInput_cardLen : s.popInput.cardLen = s.cardLen := rfl
@[simp] theorem State.popInput_cardBuf : s.popInput.cardBuf = s.cardBuf := rfl
@[simp] theorem State.popInput_lrcAcc : s.popInput.lrcAcc = s.lrcAcc := rfl
@[simp] theorem State.popInput_lrcExp : s.popInput.lrcExp = s.lrcExp := rfl
@[simp] theorem State.popInput_seenBegin : s.popInput.seenBegin = s.seenBegin := rfl
@[simp] theorem State.popInput_cfg : s.popInput.cfg = s.cfg := rfl
@[simp] theorem State.popInput_fault : s.popInput.fault = s.fault := rfl
@[simp] theorem State.popInput_out : s.popInput.out = s.out := rfl
@[simp] theorem State.popInput_stream : s.popInput.stream = s.stream := rfl
@[simp] theorem State.popInput_draws : s.popInput.draws = s.draws := rfl

/-! ### beginStep -/

@[simp] theorem State.beginStep_params : s.beginStep.params = s.params := rfl
@[simp] theorem State.beginStep_inputs : s.beginStep.inputs = s.inputs := rfl
@[simp] theorem State.beginStep_clkPrev : s.beginStep.clkPrev = s.clkPrev := rfl
@[simp] theorem State.beginStep_clkPrevV : s.beginStep.clkPrevV = s.clkPrevV := rfl
@[simp] theorem State.beginStep_phase : s.beginStep.phase = s.phase := rfl
@[simp] theorem State.beginStep_capIdx : s.beginStep.capIdx = s.capIdx := rfl
@[simp] theorem State.beginStep_capBit : s.beginStep.capBit = s.capBit := rfl
@[simp] theorem State.beginStep_state : s.beginStep.state = s.state := rfl
@[simp] theorem State.beginStep_bitcnt : s.beginStep.bitcnt = s.bitcnt := rfl
@[simp] theorem State.beginStep_shreg : s.beginStep.shreg = s.shreg := rfl
@[simp] theorem State.beginStep_digitStart : s.beginStep.digitStart = s.digitStart := rfl
@[simp] theorem State.beginStep_digitStartV : s.beginStep.digitStartV = s.digitStartV := rfl
@[simp] theorem State.beginStep_cardStart : s.beginStep.cardStart = s.cardStart := rfl
@[simp] theorem State.beginStep_cardStartV : s.beginStep.cardStartV = s.cardStartV := rfl
@[simp] theorem State.beginStep_cardEnd : s.beginStep.cardEnd = s.cardEnd := rfl
@[simp] theorem State.beginStep_cardLen : s.beginStep.cardLen = s.cardLen := rfl
@[simp] theorem State.beginStep_cardBuf : s.beginStep.cardBuf = s.cardBuf := rfl
@[simp] theorem State.beginStep_lrcAcc : s.beginStep.lrcAcc = s.lrcAcc := rfl
@[simp] theorem State.beginStep_lrcExp : s.beginStep.lrcExp = s.lrcExp := rfl
@[simp] theorem State.beginStep_seenBegin : s.beginStep.seenBegin = s.seenBegin := rfl
@[simp] theorem State.beginStep_cfg : s.beginStep.cfg = s.cfg := rfl
@[simp] theorem State.beginStep_fault : s.beginStep.fault = s.fault := rfl
@[simp] theorem State.beginStep_out : s.beginStep.out = noOutput := rfl
@[simp] theorem State.beginStep_stream : s.beginStep.stream = s.stream := rfl
@[simp] theorem State.beginStep_draws : s.beginStep.draws = s.draws := rfl

/-! ### emit -/

@[simp] theorem State.emit_params (e : Emission) : (s.emit e).params = s.params := rfl
@[simp] theorem State.emit_inputs (e : Emission) : (s.emit e).inputs = s.inputs := rfl
@[simp] theorem State.emit_clkPrev (e : Emission) : (s.emit e).clkPrev = s.clkPrev := rfl
@[simp] theorem State.emit_clkPrevV (e : Emission) : (s.emit e).clkPrevV = s.clkPrevV := rfl
@[simp] theorem State.emit_phase (e : Emission) : (s.emit e).phase = s.phase := rfl
@[simp] theorem State.emit_capIdx (e : Emission) : (s.emit e).capIdx = s.capIdx := rfl
@[simp] theorem State.emit_capBit (e : Emission) : (s.emit e).capBit = s.capBit := rfl
@[simp] theorem State.emit_state (e : Emission) : (s.emit e).state = s.state := rfl
@[simp] theorem State.emit_bitcnt (e : Emission) : (s.emit e).bitcnt = s.bitcnt := rfl
@[simp] theorem State.emit_shreg (e : Emission) : (s.emit e).shreg = s.shreg := rfl
@[simp] theorem State.emit_digitStart (e : Emission) : (s.emit e).digitStart = s.digitStart := rfl
@[simp] theorem State.emit_digitStartV (e : Emission) : (s.emit e).digitStartV = s.digitStartV := rfl
@[simp] theorem State.emit_cardStart (e : Emission) : (s.emit e).cardStart = s.cardStart := rfl
@[simp] theorem State.emit_cardStartV (e : Emission) : (s.emit e).cardStartV = s.cardStartV := rfl
@[simp] theorem State.emit_cardEnd (e : Emission) : (s.emit e).cardEnd = s.cardEnd := rfl
@[simp] theorem State.emit_cardLen (e : Emission) : (s.emit e).cardLen = s.cardLen := rfl
@[simp] theorem State.emit_cardBuf (e : Emission) : (s.emit e).cardBuf = s.cardBuf := rfl
@[simp] theorem State.emit_lrcAcc (e : Emission) : (s.emit e).lrcAcc = s.lrcAcc := rfl
@[simp] theorem State.emit_lrcExp (e : Emission) : (s.emit e).lrcExp = s.lrcExp := rfl
@[simp] theorem State.emit_seenBegin (e : Emission) : (s.emit e).seenBegin = s.seenBegin := rfl
@[simp] theorem State.emit_cfg (e : Emission) : (s.emit e).cfg = s.cfg := rfl
@[simp] theorem State.emit_fault (e : Emission) : (s.emit e).fault = s.fault := rfl
@[simp] theorem State.emit_out (e : Emission) : (s.emit e).out = s.out.put e := rfl
@[simp] theorem State.emit_stream (e : Emission) : (s.emit e).stream = s.stream ++ [serialise s.cfg.fold e] := rfl
@[simp] theorem State.emit_draws (e : Emission) : (s.emit e).draws = s.draws := rfl

/-! ### appendBit -/

@[simp] theorem State.appendBit_params (x : Bool) (a b : Nat) : (s.appendBit x a b).params = s.params := rfl
@[simp] theorem State.appendBit_inputs (x : Bool) (a b : Nat) : (s.appendBit x a b).inputs = s.inputs := rfl
@[simp] theorem State.appendBit_clkPrev (x : Bool) (a b : Nat) : (s.appendBit x a b).clkPrev = s.clkPrev := rfl
@[simp] theorem State.appendBit_clkPrevV (x : Bool) (a b : Nat) : (s.appendBit x a b).clkPrevV = s.clkPrevV := rfl
@[simp] theorem State.appendBit_phase (x : Bool) (a b : Nat) : (s.appendBit x a b).phase = s.phase := rfl
@[simp] theorem State.appendBit_capIdx (x : Bool) (a b : Nat) : (s.appendBit x a b).capIdx = s.capIdx := rfl
@[simp] theorem State.appendBit_capBit (x : Bool) (a b : Nat) : (s.appendBit x a b).capBit = s.capBit := rfl
@[simp] theorem State.appendBit_state (x : Bool) (a b : Nat) : (s.appendBit x a b).state = s.state := rfl
@[simp] theorem State.appendBit_bitcnt (x : Bool) (a b : Nat) : (s.appendBit x a b).bitcnt = s.bitcnt + 1 := rfl
@[simp] theorem State.appendBit_shreg (x : Bool) (a b : Nat) : (s.appendBit x a b).shreg = shiftIn x s.shreg := rfl
@[simp] theorem State.appendBit_digitStart (x : Bool) (a b : Nat) : (s.appendBit x a b).digitStart = s.digitStart := rfl
@[simp] theorem State.appendBit_digitStartV (x : Bool) (a b : Nat) : (s.appendBit x a b).digitStartV = s.digitStartV := rfl
@[simp] theorem State.appendBit_cardStart (x : Bool) (a b : Nat) : (s.appendBit x a b).cardStart = s.cardStart := rfl
@[simp] theorem State.appendBit_cardStartV (x : Bool) (a b : Nat) : (s.appendBit x a b).cardStartV = s.cardStartV := rfl
@[simp] theorem State.appendBit_cardEnd (x : Bool) (a b : Nat) : (s.appendBit x a b).cardEnd = s.cardEnd := rfl
@[simp] theorem State.appendBit_cardLen (x : Bool) (a b : Nat) : (s.appendBit x a b).cardLen = s.cardLen := rfl
@[simp] theorem State.appendBit_cardBuf (x : Bool) (a b : Nat) : (s.appendBit x a b).cardBuf = s.cardBuf := rfl
@[simp] theorem State.appendBit_lrcAcc (x : Bool) (a b : Nat) : (s.appendBit x a b).lrcAcc = s.lrcAcc := rfl
@[simp] theorem State.appendBit_lrcExp (x : Bool) (a b : Nat) : (s.appendBit x a b).lrcExp = s.lrcExp := rfl
@[simp] theorem State.appendBit_seenBegin (x : Bool) (a b : Nat) : (s.appendBit x a b).seenBegin = s.seenBegin := rfl
@[simp] theorem State.appendBit_cfg (x : Bool) (a b : Nat) : (s.appendBit x a b).cfg = s.cfg := rfl
@[simp] theorem State.appendBit_fault (x : Bool) (a b : Nat) : (s.appendBit x a b).fault = s.fault := rfl
@[simp] theorem State.appendBit_out (x : Bool) (a b : Nat) : (s.appendBit x a b).out = { s.out with bit := some { val := x, start := a, stop := b } } := rfl
@[simp] theorem State.appendBit_stream (x : Bool) (a b : Nat) : (s.appendBit x a b).stream = s.stream ++ [{ start := a, stop := b, category := .bit, text := .bit x }] := rfl
@[simp] theorem State.appendBit_draws (x : Bool) (a b : Nat) : (s.appendBit x a b).draws = s.draws := rfl

/-! ### openDigit -/

@[simp] theorem State.openDigit_params (a : Nat) : (s.openDigit a).params = s.params := rfl
@[simp] theorem State.openDigit_inputs (a : Nat) : (s.openDigit a).inputs = s.inputs := rfl
@[simp] theorem State.openDigit_clkPrev (a : Nat) : (s.openDigit a).clkPrev = s.clkPrev := rfl
@[simp] theorem State.openDigit_clkPrevV (a : Nat) : (s.openDigit a).clkPrevV = s.clkPrevV := rfl
@[simp] theorem State.openDigit_phase (a : Nat) : (s.openDigit a).phase = s.phase := rfl
@[simp] theorem State.openDigit_capIdx (a : Nat) : (s.openDigit a).capIdx = s.capIdx := rfl
@[simp] theorem State.openDigit_capBit (a : Nat) : (s.openDigit a).capBit = s.capBit := rfl
@[simp] theorem State.openDigit_state (a : Nat) : (s.openDigit a).state = s.state := rfl
@[simp] theorem State.openDigit_bitcnt (a : Nat) : (s.openDigit a).bitcnt = s.bitcnt := rfl
@[simp] theorem State.openDigit_shreg (a : Nat) : (s.openDigit a).shreg = s.shreg := rfl
@[simp] theorem State.openDigit_digitStart (a : Nat) : (s.openDigit a).digitStart = openStart s.digitStartV s.digitStart a := rfl
@[simp] theorem State.openDigit_digitStartV (a : Nat) : (s.openDigit a).digitStartV = true := rfl
@[simp] theorem State.openDigit_cardStart (a : Nat) : (s.openDigit a).cardStart = s.cardStart := rfl
@[simp] theorem State.openDigit_cardStartV (a : Nat) : (s.openDigit a).cardStartV = s.cardStartV := rfl
@[simp] theorem State.openDigit_cardEnd (a : Nat) : (s.openDigit a).cardEnd = s.cardEnd := rfl
@[simp] theorem State.openDigit_cardLen (a : Nat) : (s.openDigit a).cardLen = s.cardLen := rfl
@[simp] theorem State.openDigit_cardBuf (a : Nat) : (s.openDigit a).cardBuf = s.cardBuf := rfl
@[simp] theorem State.openDigit_lrcAcc (a : Nat) : (s.openDigit a).lrcAcc = s.lrcAcc := rfl
@[simp] theorem State.openDigit_lrcExp (a : Nat) : (s.openDigit a).lrcExp = s.lrcExp := rfl
@[simp] theorem State.openDigit_seenBegin (a : Nat) : (s.openDigit a).seenBegin = s.seenBegin := rfl
@[simp] theorem State.openDigit_cfg (a : Nat) : (s.openDigit a).cfg = s.cfg := rfl
@[simp] theorem State.openDigit_fault (a : Nat) : (s.openDigit a).fault = s.fault := rfl
@[simp] theorem State.openDigit_out (a : Nat) : (s.openDigit a).out = s.out := rfl
@[simp] theorem State.openDigit_stream (a : Nat) : (s.openDigit a).stream = s.stream := rfl
@[simp] theorem State.openDigit_draws (a : Nat) : (s.openDigit a).draws = s.draws := rfl

/-! ### openCard -/

@[simp] theorem State.openCard_params (a : Nat) : (s.openCard a).params = s.params := rfl
@[simp] theorem State.openCard_inputs (a : Nat) : (s.openCard a).inputs = s.inputs := rfl
@[simp] theorem State.openCard_clkPrev (a : Nat) : (s.openCard a).clkPrev = s.clkPrev := rfl
@[simp] theorem State.openCard_clkPrevV (a : Nat) : (s.openCard a).clkPrevV = s.clkPrevV := rfl
@[simp] theorem State.openCard_phase (a : Nat) : (s.openCard a).phase = s.phase := rfl
@[simp] theorem State.openCard_capIdx (a : Nat) : (s.openCard a).capIdx = s.capIdx := rfl
@[simp] theorem State.openCard_capBit (a : Nat) : (s.openCard a).capBit = s.capBit := rfl
@[simp] theorem State.openCard_state (a : Nat) : (s.openCard a).state = s.state := rfl
@[simp] theorem State.openCard_bitcnt (a : Nat) : (s.openCard a).bitcnt = s.bitcnt := rfl
@[simp] theorem State.openCard_shreg (a : Nat) : (s.openCard a).shreg = s.shreg := rfl
@[simp] theorem State.openCard_digitStart (a : Nat) : (s.openCard a).digitStart = s.digitStart := rfl
@[simp] theorem State.openCard_digitStartV (a : Nat) : (s.openCard a).digitStartV = s.digitStartV := rfl
@[simp] theorem State.openCard_cardStart (a : Nat) : (s.openCard a).cardStart = openStart s.cardStartV s.cardStart a := rfl
@[simp] theorem State.openCard_cardStartV (a : Nat) : (s.openCard a).cardStartV = true := rfl
@[simp] theorem State.openCard_cardEnd (a : Nat) : (s.openCard a).cardEnd = s.cardEnd := rfl
@[simp] theorem State.openCard_cardLen (a : Nat) : (s.openCard a).cardLen = s.cardLen := rfl
@[simp] theorem State.openCard_cardBuf (a : Nat) : (s.openCard a).cardBuf = s.cardBuf := rfl
@[simp] theorem State.openCard_lrcAcc (a : Nat) : (s.openCard a).lrcAcc = s.lrcAcc := rfl
@[simp] theorem State.openCard_lrcExp (a : Nat) : (s.openCard a).lrcExp = s.lrcExp := rfl
@[simp] theorem State.openCard_seenBegin (a : Nat) : (s.openCard a).seenBegin = s.seenBegin := rfl
@[simp] theorem State.openCard_cfg (a : Nat) : (s.openCard a).cfg = s.cfg := rfl
@[simp] theorem State.openCard_fault (a : Nat) : (s.openCard a).fault = s.fault := rfl
@[simp] theorem State.openCard_out (a : Nat) : (s.openCard a).out = s.out := rfl
@[simp] theorem State.openCard_stream (a : Nat) : (s.openCard a).stream = s.stream := rfl
@[simp] theorem State.openCard_draws (a : Nat) : (s.openCard a).draws = s.draws := rfl

/-! ### takeBit -/

@[simp] theorem State.takeBit_params (x : Bool) (a b : Nat) : (s.takeBit x a b).params = s.params := rfl
@[simp] theorem State.takeBit_inputs (x : Bool) (a b : Nat) : (s.takeBit x a b).inputs = s.inputs := rfl
@[simp] theorem State.takeBit_clkPrev (x : Bool) (a b : Nat) : (s.takeBit x a b).clkPrev = s.clkPrev := rfl
@[simp] theorem State.takeBit_clkPrevV (x : Bool) (a b : Nat) : (s.takeBit x a b).clkPrevV = s.clkPrevV := rfl
@[simp] theorem State.takeBit_phase (x : Bool) (a b : Nat) : (s.takeBit x a b).phase = s.phase := rfl
@[simp] theorem State.takeBit_capIdx (x : Bool) (a b : Nat) : (s.takeBit x a b).capIdx = s.capIdx := rfl
@[simp] theorem State.takeBit_capBit (x : Bool) (a b : Nat) : (s.takeBit x a b).capBit = s.capBit := rfl
@[simp] theorem State.takeBit_state (x : Bool) (a b : Nat) : (s.takeBit x a b).state = s.state := rfl
@[simp] theorem State.takeBit_bitcnt (x : Bool) (a b : Nat) : (s.takeBit x a b).bitcnt = s.bitcnt + 1 := rfl
@[simp] theorem State.takeBit_shreg (x : Bool) (a b : Nat) : (s.takeBit x a b).shreg = shiftIn x s.shreg := rfl
@[simp] theorem State.takeBit_digitStart (x : Bool) (a b : Nat) : (s.takeBit x a b).digitStart = openStart s.digitStartV s.digitStart a := rfl
@[simp] theorem State.takeBit_digitStartV (x : Bool) (a b : Nat) : (s.takeBit x a b).digitStartV = true := rfl
@[simp] theorem State.takeBit_cardStart (x : Bool) (a b : Nat) : (s.takeBit x a b).cardStart = openStart s.cardStartV s.cardStart a := rfl
@[simp] theorem State.takeBit_cardStartV (x : Bool) (a b : Nat) : (s.takeBit x a b).cardStartV = true := rfl
@[simp] theorem State.takeBit_cardEnd (x : Bool) (a b : Nat) : (s.takeBit x a b).cardEnd = s.cardEnd := rfl
@[simp] theorem State.takeBit_cardLen (x : Bool) (a b : Nat) : (s.takeBit x a b).cardLen = s.cardLen := rfl
@[simp] theorem State.takeBit_cardBuf (x : Bool) (a b : Nat) : (s.takeBit x a b).cardBuf = s.cardBuf := rfl
@[simp] theorem State.takeBit_lrcAcc (x : Bool) (a b : Nat) : (s.takeBit x a b).lrcAcc = s.lrcAcc := rfl
@[simp] theorem State.takeBit_lrcExp (x : Bool) (a b : Nat) : (s.takeBit x a b).lrcExp = s.lrcExp := rfl
@[simp] theorem State.takeBit_seenBegin (x : Bool) (a b : Nat) : (s.takeBit x a b).seenBegin = s.seenBegin := rfl
@[simp] theorem State.takeBit_cfg (x : Bool) (a b : Nat) : (s.takeBit x a b).cfg = s.cfg := rfl
@[simp] theorem State.takeBit_fault (x : Bool) (a b : Nat) : (s.takeBit x a b).fault = s.fault := rfl
@[simp] theorem State.takeBit_out (x : Bool) (a b : Nat) : (s.takeBit x a b).out = { s.out with bit := some { val := x, start := a, stop := b } } := rfl
@[simp] theorem State.takeBit_stream (x : Bool) (a b : Nat) : (s.takeBit x a b).stream = s.stream ++ [{ start := a, stop := b, category := .bit, text := .bit x }] := rfl
@[simp] theorem State.takeBit_draws (x : Bool) (a b : Nat) : (s.takeBit x a b).draws = s.draws := rfl

/-! ### clearBuffer -/

@[simp] theorem State.clearBuffer_params : s.clearBuffer.params = s.params := rfl
@[simp] theorem State.clearBuffer_inputs : s.clearBuffer.inputs = s.inputs := rfl
@[simp] theorem State.clearBuffer_clkPrev : s.clearBuffer.clkPrev = s.clkPrev := rfl
@[simp] theorem State.clearBuffer_clkPrevV : s.clearBuffer.clkPrevV = s.clkPrevV := rfl
@[simp] theorem State.clearBuffer_phase : s.clearBuffer.phase = s.phase := rfl
@[simp] theorem State.clearBuffer_capIdx : s.clearBuffer.capIdx = s.capIdx := rfl
@[simp] theorem State.clearBuffer_capBit : s.clearBuffer.capBit = s.capBit := rfl
@[simp] theorem State.clearBuffer_state : s.clearBuffer.state = s.state := rfl
@[simp] theorem State.clearBuffer_bitcnt : s.clearBuffer.bitcnt = 0 := rfl
@[simp] theorem State.clearBuffer_shreg : s.clearBuffer.shreg = s.shreg := rfl
@[simp] theorem State.clearBuffer_digitStart : s.clearBuffer.digitStart = s.digitStart := rfl
@[simp] theorem State.clearBuffer_digitStartV : s.clearBuffer.digitStartV = false := rfl
@[simp] theorem State.clearBuffer_cardStart : s.clearBuffer.cardStart = s.cardStart := rfl
@[simp] theorem State.clearBuffer_cardStartV : s.clearBuffer.cardStartV = s.cardStartV := rfl
@[simp] theorem State.clearBuffer_cardEnd : s.clearBuffer.cardEnd = s.cardEnd := rfl
@[simp] theorem State.clearBuffer_cardLen : s.clearBuffer.cardLen = s.cardLen := rfl
@[simp] theorem State.clearBuffer_cardBuf : s.clearBuffer.cardBuf = s.cardBuf := rfl
@[simp] theorem State.clearBuffer_lrcAcc : s.clearBuffer.lrcAcc = s.lrcAcc := rfl
@[simp] theorem State.clearBuffer_lrcExp : s.clearBuffer.lrcExp = s.lrcExp := rfl
@[simp] theorem State.clearBuffer_seenBegin : s.clearBuffer.seenBegin = s.seenBegin := rfl
@[simp] theorem State.clearBuffer_cfg : s.clearBuffer.cfg = s.cfg := rfl
@[simp] theorem State.clearBuffer_fault : s.clearBuffer.fault = s.fault := rfl
@[simp] theorem State.clearBuffer_out : s.clearBuffer.out = s.out := rfl
@[simp] theorem State.clearBuffer_stream : s.clearBuffer.stream = s.stream := rfl
@[simp] theorem State.clearBuffer_draws : s.clearBuffer.draws = s.draws := rfl

/-! ### emitDig -/

@[simp] theorem State.emitDig_params (r : Role) (v : Nibble) (b : Nat) : (s.emitDig r v b).params = s.params := rfl
@[simp] theorem State.emitDig_inputs (r : Role) (v : Nibble) (b : Nat) : (s.emitDig r v b).inputs = s.inputs := rfl
@[simp] theorem State.emitDig_clkPrev (r : Role) (v : Nibble) (b : Nat) : (s.emitDig r v b).clkPrev = s.clkPrev := rfl
@[simp] theorem State.emitDig_clkPrevV (r : Role) (v : Nibble) (b : Nat) : (s.emitDig r v b).clkPrevV = s.clkPrevV := rfl
@[simp] theorem State.emitDig_phase (r : Role) (v : Nibble) (b : Nat) : (s.emitDig r v b).phase = s.phase := rfl
@[simp] theorem State.emitDig_capIdx (r : Role) (v : Nibble) (b : Nat) : (s.emitDig r v b).capIdx = s.capIdx := rfl
@[simp] theorem State.emitDig_capBit (r : Role) (v : Nibble) (b : Nat) : (s.emitDig r v b).capBit = s.capBit := rfl
@[simp] theorem State.emitDig_state (r : Role) (v : Nibble) (b : Nat) : (s.emitDig r v b).state = s.state := rfl
@[simp] theorem State.emitDig_bitcnt (r : Role) (v : Nibble) (b : Nat) : (s.emitDig r v b).bitcnt = s.bitcnt := rfl
@[simp] theorem State.emitDig_shreg (r : Role) (v : Nibble) (b : Nat) : (s.emitDig r v b).shreg = s.shreg := rfl
@[simp] theorem State.emitDig_digitStart (r : Role) (v : Nibble) (b : Nat) : (s.emitDig r v b).digitStart = s.digitStart := rfl
@[simp] theorem State.emitDig_digitStartV (r : Role) (v : Nibble) (b : Nat) : (s.emitDig r v b).digitStartV = s.digitStartV := rfl
@[simp] theorem State.emitDig_cardStart (r : Role) (v : Nibble) (b : Nat) : (s.emitDig r v b).cardStart = s.cardStart := rfl
@[simp] theorem State.emitDig_cardStartV (r : Role) (v : Nibble) (b : Nat) : (s.emitDig r v b).cardStartV = s.cardStartV := rfl
@[simp] theorem State.emitDig_cardEnd (r : Role) (v : Nibble) (b : Nat) : (s.emitDig r v b).cardEnd = s.cardEnd := rfl
@[simp] theorem State.emitDig_cardLen (r : Role) (v : Nibble) (b : Nat) : (s.emitDig r v b).cardLen = s.cardLen := rfl
@[simp] theorem State.emitDig_cardBuf (r : Role) (v : Nibble) (b : Nat) : (s.emitDig r v b).cardBuf = s.cardBuf := rfl
@[simp] theorem State.emitDig_lrcAcc (r : Role) (v : Nibble) (b : Nat) : (s.emitDig r v b).lrcAcc = s.lrcAcc := rfl
@[simp] theorem State.emitDig_lrcExp (r : Role) (v : Nibble) (b : Nat) : (s.emitDig r v b).lrcExp = s.lrcExp := rfl
@[simp] theorem State.emitDig_seenBegin (r : Role) (v : Nibble) (b : Nat) : (s.emitDig r v b).seenBegin = s.seenBegin := rfl
@[simp] theorem State.emitDig_cfg (r : Role) (v : Nibble) (b : Nat) : (s.emitDig r v b).cfg = s.cfg := rfl
@[simp] theorem State.emitDig_fault (r : Role) (v : Nibble) (b : Nat) : (s.emitDig r v b).fault = s.fault := rfl
@[simp] theorem State.emitDig_out (r : Role) (v : Nibble) (b : Nat) : (s.emitDig r v b).out = { s.out with dig := some { role := r, val := v, start := s.digitStart, stop := b } } := rfl
@[simp] theorem State.emitDig_stream (r : Role) (v : Nibble) (b : Nat) : (s.emitDig r v b).stream = s.stream ++ [{ start := s.digitStart, stop := b, category := roleCategory s.cfg.fold r, text := .hex v }] := rfl
@[simp] theorem State.emitDig_draws (r : Role) (v : Nibble) (b : Nat) : (s.emitDig r v b).draws = s.draws := rfl

/-! ### flagParity -/

@[simp] theorem State.flagParity_params (w : DigitWord) (b : Nat) : (s.flagParity w b).params = s.params := by unfold State.flagParity; split <;> rfl
@[simp] theorem State.flagParity_inputs (w : DigitWord) (b : Nat) : (s.flagParity w b).inputs = s.inputs := by unfold State.flagParity; split <;> rfl
@[simp] theorem State.flagParity_clkPrev (w : DigitWord) (b : Nat) : (s.flagParity w b).clkPrev = s.clkPrev := by unfold State.flagParity; split <;> rfl
@[simp] theorem State.flagParity_clkPrevV (w : DigitWord) (b : Nat) : (s.flagParity w b).clkPrevV = s.clkPrevV := by unfold State.flagParity; split <;> rfl
@[simp] theorem State.flagParity_phase (w : DigitWord) (b : Nat) : (s.flagParity w b).phase = s.phase := by unfold State.flagParity; split <;> rfl
@[simp] theorem State.flagParity_capIdx (w : DigitWord) (b : Nat) : (s.flagParity w b).capIdx = s.capIdx := by unfold State.flagParity; split <;> rfl
@[simp] theorem State.flagParity_capBit (w : DigitWord) (b : Nat) : (s.flagParity w b).capBit = s.capBit := by unfold State.flagParity; split <;> rfl
@[simp] theorem State.flagParity_state (w : DigitWord) (b : Nat) : (s.flagParity w b).state = s.state := by unfold State.flagParity; split <;> rfl
@[simp] theorem State.flagParity_bitcnt (w : DigitWord) (b : Nat) : (s.flagParity w b).bitcnt = s.bitcnt := by unfold State.flagParity; split <;> rfl
@[simp] theorem State.flagParity_shreg (w : DigitWord) (b : Nat) : (s.flagParity w b).shreg = s.shreg := by unfold State.flagParity; split <;> rfl
@[simp] theorem State.flagParity_digitStart (w : DigitWord) (b : Nat) : (s.flagParity w b).digitStart = s.digitStart := by unfold State.flagParity; split <;> rfl
@[simp] theorem State.flagParity_digitStartV (w : DigitWord) (b : Nat) : (s.flagParity w b).digitStartV = s.digitStartV := by unfold State.flagParity; split <;> rfl
@[simp] theorem State.flagParity_cardStart (w : DigitWord) (b : Nat) : (s.flagParity w b).cardStart = s.cardStart := by unfold State.flagParity; split <;> rfl
@[simp] theorem State.flagParity_cardStartV (w : DigitWord) (b : Nat) : (s.flagParity w b).cardStartV = s.cardStartV := by unfold State.flagParity; split <;> rfl
@[simp] theorem State.flagParity_cardEnd (w : DigitWord) (b : Nat) : (s.flagParity w b).cardEnd = s.cardEnd := by unfold State.flagParity; split <;> rfl
@[simp] theorem State.flagParity_cardLen (w : DigitWord) (b : Nat) : (s.flagParity w b).cardLen = s.cardLen := by unfold State.flagParity; split <;> rfl
@[simp] theorem State.flagParity_cardBuf (w : DigitWord) (b : Nat) : (s.flagParity w b).cardBuf = s.cardBuf := by unfold State.flagParity; split <;> rfl
@[simp] theorem State.flagParity_lrcAcc (w : DigitWord) (b : Nat) : (s.flagParity w b).lrcAcc = s.lrcAcc := by unfold State.flagParity; split <;> rfl
@[simp] theorem State.flagParity_lrcExp (w : DigitWord) (b : Nat) : (s.flagParity w b).lrcExp = s.lrcExp := by unfold State.flagParity; split <;> rfl
@[simp] theorem State.flagParity_seenBegin (w : DigitWord) (b : Nat) : (s.flagParity w b).seenBegin = s.seenBegin := by unfold State.flagParity; split <;> rfl
@[simp] theorem State.flagParity_cfg (w : DigitWord) (b : Nat) : (s.flagParity w b).cfg = s.cfg := by unfold State.flagParity; split <;> rfl
@[simp] theorem State.flagParity_fault (w : DigitWord) (b : Nat) : (s.flagParity w b).fault = s.fault := by unfold State.flagParity; split <;> rfl
@[simp] theorem State.flagParity_draws (w : DigitWord) (b : Nat) : (s.flagParity w b).draws = s.draws := by unfold State.flagParity; split <;> rfl

/-! ### resolve -/

@[simp] theorem State.resolve_params (w : DigitWord) (b : Nat) : (s.resolve w b).params = s.params := by simp [State.resolve]
@[simp] theorem State.resolve_inputs (w : DigitWord) (b : Nat) : (s.resolve w b).inputs = s.inputs := by simp [State.resolve]
@[simp] theorem State.resolve_clkPrev (w : DigitWord) (b : Nat) : (s.resolve w b).clkPrev = s.clkPrev := by simp [State.resolve]
@[simp] theorem State.resolve_clkPrevV (w : DigitWord) (b : Nat) : (s.resolve w b).clkPrevV = s.clkPrevV := by simp [State.resolve]
@[simp] theorem State.resolve_phase (w : DigitWord) (b : Nat) : (s.resolve w b).phase = s.phase := by simp [State.resolve]
@[simp] theorem State.resolve_capIdx (w : DigitWord) (b : Nat) : (s.resolve w b).capIdx = s.capIdx := by simp [State.resolve]
@[simp] theorem State.resolve_capBit (w : DigitWord) (b : Nat) : (s.resolve w b).capBit = s.capBit := by simp [State.resolve]
@[simp] theorem State.resolve_state (w : DigitWord) (b : Nat) : (s.resolve w b).state = s.state := by simp [State.resolve]
@[simp] theorem State.resolve_bitcnt (w : DigitWord) (b : Nat) : (s.resolve w b).bitcnt = s.bitcnt := by simp [State.resolve]
@[simp] theorem State.resolve_shreg (w : DigitWord) (b : Nat) : (s.resolve w b).shreg = s.shreg := by simp [State.resolve]
@[simp] theorem State.resolve_digitStart (w : DigitWord) (b : Nat) : (s.resolve w b).digitStart = s.digitStart := by simp [State.resolve]
@[simp] theorem State.resolve_digitStartV (w : DigitWord) (b : Nat) : (s.resolve w b).digitStartV = s.digitStartV := by simp [State.resolve]
@[simp] theorem State.resolve_cardStart (w : DigitWord) (b : Nat) : (s.resolve w b).cardStart = s.cardStart := by simp [State.resolve]
@[simp] theorem State.resolve_cardStartV (w : DigitWord) (b : Nat) : (s.resolve w b).cardStartV = s.cardStartV := by simp [State.resolve]
@[simp] theorem State.resolve_cardEnd (w : DigitWord) (b : Nat) : (s.resolve w b).cardEnd = s.cardEnd := by simp [State.resolve]
@[simp] theorem State.resolve_cardLen (w : DigitWord) (b : Nat) : (s.resolve w b).cardLen = s.cardLen := by simp [State.resolve]
@[simp] theorem State.resolve_cardBuf (w : DigitWord) (b : Nat) : (s.resolve w b).cardBuf = s.cardBuf := by simp [State.resolve]
@[simp] theorem State.resolve_lrcAcc (w : DigitWord) (b : Nat) : (s.resolve w b).lrcAcc = accumulate s.lrcAcc (wordValue w) := by simp [State.resolve]
@[simp] theorem State.resolve_lrcExp (w : DigitWord) (b : Nat) : (s.resolve w b).lrcExp = s.lrcExp := by simp [State.resolve]
@[simp] theorem State.resolve_seenBegin (w : DigitWord) (b : Nat) : (s.resolve w b).seenBegin = s.seenBegin := by simp [State.resolve]
@[simp] theorem State.resolve_cfg (w : DigitWord) (b : Nat) : (s.resolve w b).cfg = s.cfg := by simp [State.resolve]
@[simp] theorem State.resolve_fault (w : DigitWord) (b : Nat) : (s.resolve w b).fault = s.fault := by simp [State.resolve]
@[simp] theorem State.resolve_draws (w : DigitWord) (b : Nat) : (s.resolve w b).draws = s.draws := by simp [State.resolve]

/-! ### cardAppend -/

@[simp] theorem State.cardAppend_params (v : Nibble) (b : Nat) : (s.cardAppend v b).params = s.params := rfl
@[simp] theorem State.cardAppend_inputs (v : Nibble) (b : Nat) : (s.cardAppend v b).inputs = s.inputs := rfl
@[simp] theorem State.cardAppend_clkPrev (v : Nibble) (b : Nat) : (s.cardAppend v b).clkPrev = s.clkPrev := rfl
@[simp] theorem State.cardAppend_clkPrevV (v : Nibble) (b : Nat) : (s.cardAppend v b).clkPrevV = s.clkPrevV := rfl
@[simp] theorem State.cardAppend_phase (v : Nibble) (b : Nat) : (s.cardAppend v b).phase = s.phase := rfl
@[simp] theorem State.cardAppend_capIdx (v : Nibble) (b : Nat) : (s.cardAppend v b).capIdx = s.capIdx := rfl
@[simp] theorem State.cardAppend_capBit (v : Nibble) (b : Nat) : (s.cardAppend v b).capBit = s.capBit := rfl
@[simp] theorem State.cardAppend_state (v : Nibble) (b : Nat) : (s.cardAppend v b).state = s.state := rfl
@[simp] theorem State.cardAppend_bitcnt (v : Nibble) (b : Nat) : (s.cardAppend v b).bitcnt = s.bitcnt := rfl
@[simp] theorem State.cardAppend_shreg (v : Nibble) (b : Nat) : (s.cardAppend v b).shreg = s.shreg := rfl
@[simp] theorem State.cardAppend_digitStart (v : Nibble) (b : Nat) : (s.cardAppend v b).digitStart = s.digitStart := rfl
@[simp] theorem State.cardAppend_digitStartV (v : Nibble) (b : Nat) : (s.cardAppend v b).digitStartV = s.digitStartV := rfl
@[simp] theorem State.cardAppend_cardStart (v : Nibble) (b : Nat) : (s.cardAppend v b).cardStart = s.cardStart := rfl
@[simp] theorem State.cardAppend_cardStartV (v : Nibble) (b : Nat) : (s.cardAppend v b).cardStartV = s.cardStartV := rfl
@[simp] theorem State.cardAppend_cardEnd (v : Nibble) (b : Nat) : (s.cardAppend v b).cardEnd = b := rfl
@[simp] theorem State.cardAppend_cardLen (v : Nibble) (b : Nat) : (s.cardAppend v b).cardLen = s.cardLen + 1 := rfl
@[simp] theorem State.cardAppend_cardBuf (v : Nibble) (b : Nat) : (s.cardAppend v b).cardBuf = s.cardBuf.set s.cardLen v := rfl
@[simp] theorem State.cardAppend_lrcAcc (v : Nibble) (b : Nat) : (s.cardAppend v b).lrcAcc = s.lrcAcc := rfl
@[simp] theorem State.cardAppend_lrcExp (v : Nibble) (b : Nat) : (s.cardAppend v b).lrcExp = s.lrcExp := rfl
@[simp] theorem State.cardAppend_seenBegin (v : Nibble) (b : Nat) : (s.cardAppend v b).seenBegin = s.seenBegin := rfl
@[simp] theorem State.cardAppend_cfg (v : Nibble) (b : Nat) : (s.cardAppend v b).cfg = s.cfg := rfl
@[simp] theorem State.cardAppend_fault (v : Nibble) (b : Nat) : (s.cardAppend v b).fault = s.fault := rfl
@[simp] theorem State.cardAppend_out (v : Nibble) (b : Nat) : (s.cardAppend v b).out = s.out := rfl
@[simp] theorem State.cardAppend_stream (v : Nibble) (b : Nat) : (s.cardAppend v b).stream = s.stream := rfl
@[simp] theorem State.cardAppend_draws (v : Nibble) (b : Nat) : (s.cardAppend v b).draws = s.draws := rfl

/-! ### flush -/

@[simp] theorem State.flush_params (c : Cause) : (s.flush c).params = s.params := rfl
@[simp] theorem State.flush_inputs (c : Cause) : (s.flush c).inputs = s.inputs := rfl
@[simp] theorem State.flush_clkPrev (c : Cause) : (s.flush c).clkPrev = s.clkPrev := rfl
@[simp] theorem State.flush_clkPrevV (c : Cause) : (s.flush c).clkPrevV = s.clkPrevV := rfl
@[simp] theorem State.flush_phase (c : Cause) : (s.flush c).phase = s.phase := rfl
@[simp] theorem State.flush_capIdx (c : Cause) : (s.flush c).capIdx = s.capIdx := rfl
@[simp] theorem State.flush_capBit (c : Cause) : (s.flush c).capBit = s.capBit := rfl
@[simp] theorem State.flush_state (c : Cause) : (s.flush c).state = s.state := rfl
@[simp] theorem State.flush_bitcnt (c : Cause) : (s.flush c).bitcnt = s.bitcnt := rfl
@[simp] theorem State.flush_shreg (c : Cause) : (s.flush c).shreg = s.shreg := rfl
@[simp] theorem State.flush_digitStart (c : Cause) : (s.flush c).digitStart = s.digitStart := rfl
@[simp] theorem State.flush_digitStartV (c : Cause) : (s.flush c).digitStartV = s.digitStartV := rfl
@[simp] theorem State.flush_cardStart (c : Cause) : (s.flush c).cardStart = s.cardStart := rfl
@[simp] theorem State.flush_cardStartV (c : Cause) : (s.flush c).cardStartV = false := rfl
@[simp] theorem State.flush_cardEnd (c : Cause) : (s.flush c).cardEnd = s.cardEnd := rfl
@[simp] theorem State.flush_cardLen (c : Cause) : (s.flush c).cardLen = 0 := rfl
@[simp] theorem State.flush_cardBuf (c : Cause) : (s.flush c).cardBuf = s.cardBuf := rfl
@[simp] theorem State.flush_lrcAcc (c : Cause) : (s.flush c).lrcAcc = s.lrcAcc := rfl
@[simp] theorem State.flush_lrcExp (c : Cause) : (s.flush c).lrcExp = s.lrcExp := rfl
@[simp] theorem State.flush_seenBegin (c : Cause) : (s.flush c).seenBegin = s.seenBegin := rfl
@[simp] theorem State.flush_cfg (c : Cause) : (s.flush c).cfg = s.cfg := rfl
@[simp] theorem State.flush_fault (c : Cause) : (s.flush c).fault = s.fault := rfl
@[simp] theorem State.flush_out (c : Cause) : (s.flush c).out = { s.out with card := some { cause := c, start := s.cardStart, stop := s.flushEnd, n := s.cardLen, digits := s.cardBuf.take s.cardLen } } := rfl
@[simp] theorem State.flush_stream (c : Cause) : (s.flush c).stream = s.stream ++ [{ start := s.cardStart, stop := s.flushEnd, category := .card, text := cardText s.cardLen (s.cardBuf.take s.cardLen) }] := rfl
@[simp] theorem State.flush_draws (c : Cause) : (s.flush c).draws = s.draws + 1 := rfl

/-! ### checkLrc -/

@[simp] theorem State.checkLrc_params (w : DigitWord) (b : Nat) : (s.checkLrc w b).params = s.params := by unfold State.checkLrc; split <;> rfl
@[simp] theorem State.checkLrc_inputs (w : DigitWord) (b : Nat) : (s.checkLrc w b).inputs = s.inputs := by unfold State.checkLrc; split <;> rfl
@[simp] theorem State.checkLrc_clkPrev (w : DigitWord) (b : Nat) : (s.checkLrc w b).clkPrev = s.clkPrev := by unfold State.checkLrc; split <;> rfl
@[simp] theorem State.checkLrc_clkPrevV (w : DigitWord) (b : Nat) : (s.checkLrc w b).clkPrevV = s.clkPrevV := by unfold State.checkLrc; split <;> rfl
@[simp] theorem State.checkLrc_phase (w : DigitWord) (b : Nat) : (s.checkLrc w b).phase = s.phase := by unfold State.checkLrc; split <;> rfl
@[simp] theorem State.checkLrc_capIdx (w : DigitWord) (b : Nat) : (s.checkLrc w b).capIdx = s.capIdx := by unfold State.checkLrc; split <;> rfl
@[simp] theorem State.checkLrc_capBit (w : DigitWord) (b : Nat) : (s.checkLrc w b).capBit = s.capBit := by unfold State.checkLrc; split <;> rfl
@[simp] theorem State.checkLrc_state (w : DigitWord) (b : Nat) : (s.checkLrc w b).state = s.state := by unfold State.checkLrc; split <;> rfl
@[simp] theorem State.checkLrc_bitcnt (w : DigitWord) (b : Nat) : (s.checkLrc w b).bitcnt = s.bitcnt := by unfold State.checkLrc; split <;> rfl
@[simp] theorem State.checkLrc_shreg (w : DigitWord) (b : Nat) : (s.checkLrc w b).shreg = s.shreg := by unfold State.checkLrc; split <;> rfl
@[simp] theorem State.checkLrc_digitStart (w : DigitWord) (b : Nat) : (s.checkLrc w b).digitStart = s.digitStart := by unfold State.checkLrc; split <;> rfl
@[simp] theorem State.checkLrc_digitStartV (w : DigitWord) (b : Nat) : (s.checkLrc w b).digitStartV = s.digitStartV := by unfold State.checkLrc; split <;> rfl
@[simp] theorem State.checkLrc_cardStart (w : DigitWord) (b : Nat) : (s.checkLrc w b).cardStart = s.cardStart := by unfold State.checkLrc; split <;> rfl
@[simp] theorem State.checkLrc_cardStartV (w : DigitWord) (b : Nat) : (s.checkLrc w b).cardStartV = s.cardStartV := by unfold State.checkLrc; split <;> rfl
@[simp] theorem State.checkLrc_cardEnd (w : DigitWord) (b : Nat) : (s.checkLrc w b).cardEnd = s.cardEnd := by unfold State.checkLrc; split <;> rfl
@[simp] theorem State.checkLrc_cardLen (w : DigitWord) (b : Nat) : (s.checkLrc w b).cardLen = s.cardLen := by unfold State.checkLrc; split <;> rfl
@[simp] theorem State.checkLrc_cardBuf (w : DigitWord) (b : Nat) : (s.checkLrc w b).cardBuf = s.cardBuf := by unfold State.checkLrc; split <;> rfl
@[simp] theorem State.checkLrc_lrcAcc (w : DigitWord) (b : Nat) : (s.checkLrc w b).lrcAcc = s.lrcAcc := by unfold State.checkLrc; split <;> rfl
@[simp] theorem State.checkLrc_lrcExp (w : DigitWord) (b : Nat) : (s.checkLrc w b).lrcExp = s.lrcExp := by unfold State.checkLrc; split <;> rfl
@[simp] theorem State.checkLrc_seenBegin (w : DigitWord) (b : Nat) : (s.checkLrc w b).seenBegin = s.seenBegin := by unfold State.checkLrc; split <;> rfl
@[simp] theorem State.checkLrc_cfg (w : DigitWord) (b : Nat) : (s.checkLrc w b).cfg = s.cfg := by unfold State.checkLrc; split <;> rfl
@[simp] theorem State.checkLrc_fault (w : DigitWord) (b : Nat) : (s.checkLrc w b).fault = s.fault := by unfold State.checkLrc; split <;> rfl
@[simp] theorem State.checkLrc_draws (w : DigitWord) (b : Nat) : (s.checkLrc w b).draws = s.draws := by unfold State.checkLrc; split <;> rfl

/-! ### fullReset -/

@[simp] theorem State.fullReset_params : s.fullReset.params = s.params := rfl
@[simp] theorem State.fullReset_inputs : s.fullReset.inputs = s.inputs := rfl
@[simp] theorem State.fullReset_clkPrev : s.fullReset.clkPrev = s.clkPrev := rfl
@[simp] theorem State.fullReset_clkPrevV : s.fullReset.clkPrevV = s.clkPrevV := rfl
@[simp] theorem State.fullReset_phase : s.fullReset.phase = s.phase := rfl
@[simp] theorem State.fullReset_capIdx : s.fullReset.capIdx = s.capIdx := rfl
@[simp] theorem State.fullReset_capBit : s.fullReset.capBit = s.capBit := rfl
@[simp] theorem State.fullReset_state : s.fullReset.state = .leadIn := rfl
@[simp] theorem State.fullReset_bitcnt : s.fullReset.bitcnt = 0 := rfl
@[simp] theorem State.fullReset_shreg : s.fullReset.shreg = s.shreg := rfl
@[simp] theorem State.fullReset_digitStart : s.fullReset.digitStart = s.digitStart := rfl
@[simp] theorem State.fullReset_digitStartV : s.fullReset.digitStartV = false := rfl
@[simp] theorem State.fullReset_cardStart : s.fullReset.cardStart = s.cardStart := rfl
@[simp] theorem State.fullReset_cardStartV : s.fullReset.cardStartV = false := rfl
@[simp] theorem State.fullReset_cardEnd : s.fullReset.cardEnd = s.cardEnd := rfl
@[simp] theorem State.fullReset_cardLen : s.fullReset.cardLen = 0 := rfl
@[simp] theorem State.fullReset_cardBuf : s.fullReset.cardBuf = s.cardBuf := rfl
@[simp] theorem State.fullReset_lrcAcc : s.fullReset.lrcAcc = 0#4 := rfl
@[simp] theorem State.fullReset_lrcExp : s.fullReset.lrcExp = s.lrcExp := rfl
@[simp] theorem State.fullReset_seenBegin : s.fullReset.seenBegin = false := rfl
@[simp] theorem State.fullReset_cfg : s.fullReset.cfg = s.cfg := rfl
@[simp] theorem State.fullReset_fault : s.fullReset.fault = s.fault := rfl
@[simp] theorem State.fullReset_out : s.fullReset.out = s.out := rfl
@[simp] theorem State.fullReset_stream : s.fullReset.stream = s.stream := rfl
@[simp] theorem State.fullReset_draws : s.fullReset.draws = s.draws := rfl

/-! ### closeBit -/

@[simp] theorem State.closeBit_params (m : Sample) : (s.closeBit m).params = s.params := rfl
@[simp] theorem State.closeBit_inputs (m : Sample) : (s.closeBit m).inputs = s.inputs := rfl
@[simp] theorem State.closeBit_clkPrev (m : Sample) : (s.closeBit m).clkPrev = m.clk := rfl
@[simp] theorem State.closeBit_clkPrevV (m : Sample) : (s.closeBit m).clkPrevV = s.clkPrevV := rfl
@[simp] theorem State.closeBit_phase (m : Sample) : (s.closeBit m).phase = .waitCapture := rfl
@[simp] theorem State.closeBit_capIdx (m : Sample) : (s.closeBit m).capIdx = s.capIdx := rfl
@[simp] theorem State.closeBit_capBit (m : Sample) : (s.closeBit m).capBit = s.capBit := rfl
@[simp] theorem State.closeBit_state (m : Sample) : (s.closeBit m).state = s.state := rfl
@[simp] theorem State.closeBit_bitcnt (m : Sample) : (s.closeBit m).bitcnt = s.bitcnt := rfl
@[simp] theorem State.closeBit_shreg (m : Sample) : (s.closeBit m).shreg = s.shreg := rfl
@[simp] theorem State.closeBit_digitStart (m : Sample) : (s.closeBit m).digitStart = s.digitStart := rfl
@[simp] theorem State.closeBit_digitStartV (m : Sample) : (s.closeBit m).digitStartV = s.digitStartV := rfl
@[simp] theorem State.closeBit_cardStart (m : Sample) : (s.closeBit m).cardStart = s.cardStart := rfl
@[simp] theorem State.closeBit_cardStartV (m : Sample) : (s.closeBit m).cardStartV = s.cardStartV := rfl
@[simp] theorem State.closeBit_cardEnd (m : Sample) : (s.closeBit m).cardEnd = s.cardEnd := rfl
@[simp] theorem State.closeBit_cardLen (m : Sample) : (s.closeBit m).cardLen = s.cardLen := rfl
@[simp] theorem State.closeBit_cardBuf (m : Sample) : (s.closeBit m).cardBuf = s.cardBuf := rfl
@[simp] theorem State.closeBit_lrcAcc (m : Sample) : (s.closeBit m).lrcAcc = s.lrcAcc := rfl
@[simp] theorem State.closeBit_lrcExp (m : Sample) : (s.closeBit m).lrcExp = s.lrcExp := rfl
@[simp] theorem State.closeBit_seenBegin (m : Sample) : (s.closeBit m).seenBegin = s.seenBegin := rfl
@[simp] theorem State.closeBit_cfg (m : Sample) : (s.closeBit m).cfg = s.cfg := rfl
@[simp] theorem State.closeBit_fault (m : Sample) : (s.closeBit m).fault = s.fault := rfl
@[simp] theorem State.closeBit_out (m : Sample) : (s.closeBit m).out = noOutput := rfl
@[simp] theorem State.closeBit_stream (m : Sample) : (s.closeBit m).stream = s.stream := rfl
@[simp] theorem State.closeBit_draws (m : Sample) : (s.closeBit m).draws = s.draws := rfl

/-! ### hardwareReset -/

@[simp] theorem State.hardwareReset_params (c : Cfg) : (s.hardwareReset c).params = s.params := rfl
@[simp] theorem State.hardwareReset_inputs (c : Cfg) : (s.hardwareReset c).inputs = s.inputs := rfl
@[simp] theorem State.hardwareReset_clkPrev (c : Cfg) : (s.hardwareReset c).clkPrev = drawBit s.draws := rfl
@[simp] theorem State.hardwareReset_clkPrevV (c : Cfg) : (s.hardwareReset c).clkPrevV = false := rfl
@[simp] theorem State.hardwareReset_phase (c : Cfg) : (s.hardwareReset c).phase = .waitCapture := rfl
@[simp] theorem State.hardwareReset_capIdx (c : Cfg) : (s.hardwareReset c).capIdx = drawIndex s.params (s.draws + 1) := rfl
@[simp] theorem State.hardwareReset_capBit (c : Cfg) : (s.hardwareReset c).capBit = drawBit (s.draws + 2) := rfl
@[simp] theorem State.hardwareReset_state (c : Cfg) : (s.hardwareReset c).state = .leadIn := rfl
@[simp] theorem State.hardwareReset_bitcnt (c : Cfg) : (s.hardwareReset c).bitcnt = 0 := rfl
@[simp] theorem State.hardwareReset_shreg (c : Cfg) : (s.hardwareReset c).shreg = 0#5 := rfl
@[simp] theorem State.hardwareReset_digitStart (c : Cfg) : (s.hardwareReset c).digitStart = drawIndex s.params (s.draws + 3) := rfl
@[simp] theorem State.hardwareReset_digitStartV (c : Cfg) : (s.hardwareReset c).digitStartV = false := rfl
@[simp] theorem State.hardwareReset_cardStart (c : Cfg) : (s.hardwareReset c).cardStart = drawIndex s.params (s.draws + 4) := rfl
@[simp] theorem State.hardwareReset_cardStartV (c : Cfg) : (s.hardwareReset c).cardStartV = false := rfl
@[simp] theorem State.hardwareReset_cardEnd (c : Cfg) : (s.hardwareReset c).cardEnd = drawIndex s.params (s.draws + 5) := rfl
@[simp] theorem State.hardwareReset_cardLen (c : Cfg) : (s.hardwareReset c).cardLen = 0 := rfl
@[simp] theorem State.hardwareReset_cardBuf (c : Cfg) : (s.hardwareReset c).cardBuf = drawCardBuf s.params (s.draws + 7) := rfl
@[simp] theorem State.hardwareReset_lrcAcc (c : Cfg) : (s.hardwareReset c).lrcAcc = 0#4 := rfl
@[simp] theorem State.hardwareReset_lrcExp (c : Cfg) : (s.hardwareReset c).lrcExp = drawWord (s.draws + 6) := rfl
@[simp] theorem State.hardwareReset_seenBegin (c : Cfg) : (s.hardwareReset c).seenBegin = false := rfl
@[simp] theorem State.hardwareReset_cfg (c : Cfg) : (s.hardwareReset c).cfg = c := rfl
@[simp] theorem State.hardwareReset_fault (c : Cfg) : (s.hardwareReset c).fault = s.fault := rfl
@[simp] theorem State.hardwareReset_out (c : Cfg) : (s.hardwareReset c).out = s.out := rfl
@[simp] theorem State.hardwareReset_stream (c : Cfg) : (s.hardwareReset c).stream = s.stream := rfl
@[simp] theorem State.hardwareReset_draws (c : Cfg) : (s.hardwareReset c).draws = s.draws + resetDraws s.params := rfl

end Sys2Proof.Machine
end

