-- ==== Sys2Proof/Laws/Ops.lean ====
section
/-! SUPPORT. What each shared operation can do, said once: the operations as one record update, the Frame Decoder operations
as instructions, and what they never write. -/

namespace Sys2Proof.Machine

/-! ### Operations as one update -/

theorem State.takeBit_eq (x : Bool) (a b : Nat) (s : State) :
    s.takeBit x a b =
      { s with
        shreg := shiftIn x s.shreg, bitcnt := s.bitcnt + 1
        digitStart := openStart s.digitStartV s.digitStart a, digitStartV := true
        cardStart := openStart s.cardStartV s.cardStart a, cardStartV := true
        out := { s.out with bit := some { val := x, start := a, stop := b } }
        stream := s.stream ++ [{ start := a, stop := b, category := .bit, text := .bit x }] } := rfl

theorem State.resolve_eq (w : DigitWord) (b : Nat) (s : State) :
    s.resolve w b =
      { s with
        lrcAcc := accumulate s.lrcAcc (wordValue w), out := parityOut s.cfg w s.digitStart b s.out
        stream := s.stream ++ parityRecords s.cfg w s.digitStart b } := by
  unfold State.resolve State.flagParity
  cases hf : s.cfg.psev <;> cases hw : oddParity w <;>
    simp [State.emit, hf, hw, parityOut, parityRecords, flagsParity, Bundle.put, serialise]

theorem State.checkLrc_eq (w : DigitWord) (b : Nat) (s : State) :
    s.checkLrc w b =
      { s with
        out := if w = s.lrcExp then s.out else { s.out with lrcerr := some { start := s.digitStart, stop := b } }
        stream := s.stream ++ if w = s.lrcExp then []
          else [{ start := s.digitStart, stop := b, category := errorCategory s.cfg.fold, text := .lrcError }] } := by
  unfold State.checkLrc lrcOk
  by_cases h : w = s.lrcExp <;> simp [h, State.emit, Bundle.put, serialise]

theorem State.emitDig_eq (r : Role) (v : Nibble) (b : Nat) (s : State) :
    s.emitDig r v b =
      { s with
        out := { s.out with dig := some { role := r, val := v, start := s.digitStart, stop := b } }
        stream := s.stream
          ++ [{ start := s.digitStart, stop := b, category := roleCategory s.cfg.fold r, text := .hex v }] } := rfl

theorem State.flush_eq (c : Cause) (s : State) :
    s.flush c =
      { s with
        cardStartV := false, cardLen := 0, draws := s.draws + 1
        out := { s.out with
                 card := some { cause := c, start := s.cardStart, stop := s.flushEnd, n := s.cardLen
                                digits := s.cardBuf.take s.cardLen } }
        stream := s.stream ++ [{ start := s.cardStart, stop := s.flushEnd, category := .card
                                 text := cardText s.cardLen (s.cardBuf.take s.cardLen) }] } := rfl

/-! ### The digit word -/

@[simp] theorem wordValue_digitWord (p : Bool) (v : Nibble) : wordValue (digitWord p v) = v := by
  revert p v; decide

@[simp] theorem wordParityBit_digitWord (p : Bool) (v : Nibble) : wordParityBit (digitWord p v) = p := by
  revert p v; decide

theorem digitWord_of_word (w : DigitWord) : digitWord (wordParityBit w) (wordValue w) = w := by
  revert w; decide

/-- The word that `placeDigit` leaves in the shift register, after the fifth bit. -/
theorem shiftIn_placed (w : DigitWord) : shiftIn (wordParityBit w) (BitVec.append (wordValue w) 0#1) = w := by
  revert w; decide

/-! ### The operations as instructions -/

/-- A Frame Decoder operation performed by a bit step is the instruction it stands for. -/
theorem runFrameOp_eq_exec (stop : Nat) (op : FrameOp) (s : State) :
    runFrameOp stop op s = exec (op.toInstr stop) s := by
  cases op <;> rfl

/-- Every Frame Decoder operation but DIG_DATA goes on; DIG_DATA stops exactly where the card string is full. -/
theorem runFrameOp_cases (stop : Nat) (op : FrameOp) (s : State) :
    (∃ t, runFrameOp stop op s = .next t)
      ∨ ((∃ v p, op = .digData v p) ∧ s.cardFull = true ∧ runFrameOp stop op s = s.raiseCardOverflow) := by
  cases op
  case digData v p =>
    cases h : s.cardFull
    · exact .inl ⟨_, by simp only [runFrameOp, execDigData, h]; rfl⟩
    · exact .inr ⟨⟨v, p, rfl⟩, rfl, by simp [runFrameOp, execDigData, h]⟩
  all_goals exact .inl ⟨_, rfl⟩

/-- The Frame Decoder's operations write neither the session state (10_state.md R49) nor the parameters, the pending inputs,
the `fault` mark and the shift register, and they keep the record of the bit itself. -/
theorem runFrameOp_session {stop : Nat} {op : FrameOp} {s t : State} (h : runFrameOp stop op s = .next t) :
    t.params = s.params ∧ t.inputs = s.inputs ∧ t.clkPrev = s.clkPrev ∧ t.clkPrevV = s.clkPrevV ∧ t.phase = s.phase
      ∧ t.capIdx = s.capIdx ∧ t.capBit = s.capBit ∧ t.cfg = s.cfg ∧ t.fault = s.fault ∧ t.shreg = s.shreg
      ∧ t.out.bit = s.out.bit := by
  cases op
  case digData v p =>
    simp only [runFrameOp, execDigData] at h
    split at h
    · cases h
    · cases h; simp [State.resolve_eq, parityOut]
  all_goals
    cases h
    simp [State.resolve_eq, State.checkLrc_eq, parityOut, Bundle.put]
  split <;> rfl

/-- No operation is refused but a RESET with an illegal configuration. -/
theorem exec_refused {i : Instr} {s : State} {r : Refusal} (h : exec i s = .refused r) :
    r = .illegalConfig ∧ ∃ c, i = .reset c ∧ c.legal = false := by
  cases i
  case reset c =>
    simp only [exec, execReset] at h
    split at h
    · cases h
    · cases h; exact ⟨rfl, c, rfl, by simp_all⟩
  case smpUpdate m =>
    exfalso
    simp only [exec, execSmpUpdate, perBitUpdate] at h
    rcases runFrameOp_cases m.idx
        (decodeFrame (((s.closeBit m).takeBit s.capBit s.capIdx m.idx).bitSel m.idx))
        ((s.closeBit m).takeBit s.capBit s.capIdx m.idx) with ⟨t, ht⟩ | ⟨-, -, ht⟩
    · rw [ht] at h; cases h
    · rw [ht] at h; cases h
  case digData v p b =>
    simp only [exec, execDigData] at h
    split at h <;> cases h
  all_goals cases h

end Sys2Proof.Machine
end

