-- ==== Sys2Proof/Laws/PerInstr.lean ====
section
/-! SUPPORT. Facts about the instruction as syntax, one lemma per constructor. Family `EncodeFits`: the encoder's selector
holds nothing that the ports of the block could not carry. -/

namespace Sys2Proof.Laws.EncodeFits

/-- The selector of a well-formed instruction fits the ports. -/
def Statement (i : Instr) : Prop :=
  ∀ p : Params, i.wf p = true → Machine.selectorFits p (encode i) = true

theorem fits_none (p : Params) : p.fitsIndex Sample.none.idx = true := by
  simp [Params.fitsIndex, Sample.none]

theorem cfg_none (p : Params) : Cfg.none.fits p = true := by
  simp [Cfg.fits, Params.fitsCount, Cfg.none]

theorem sampleSel_fits {p : Params} {m : Sample} (ph : Phase) (e : Option Edge) (h : p.fitsIndex m.idx = true) :
    Machine.selectorFits p (sampleSel ph e m) = true := by
  simp [Machine.selectorFits, sampleSel, cfg_none, h]

theorem reset (cfg : Cfg) : Statement (.reset cfg) := fun p h => by
  have h' : cfg.fits p = true := h
  simp [Machine.selectorFits, encode, h', fits_none]

theorem smpNone : Statement .smpNone := fun p _ => by
  simp [Machine.selectorFits, encode, cfg_none, fits_none]

theorem smpSeed (smp : Sample) : Statement (.smpSeed smp) := fun p h => by
  have h' : p.fitsIndex smp.idx = true := h
  simp [Machine.selectorFits, encode, cfg_none, h']

theorem smpCapture (smp : Sample) : Statement (.smpCapture smp) := fun _ h => sampleSel_fits _ _ h
theorem smpIgnore (smp : Sample) : Statement (.smpIgnore smp) := fun _ h => sampleSel_fits _ _ h
theorem smpUpdate (smp : Sample) : Statement (.smpUpdate smp) := fun _ h => sampleSel_fits _ _ h
theorem smpHold (smp : Sample) : Statement (.smpHold smp) := fun _ h => sampleSel_fits _ _ h
theorem leadinBit (stop : Nat) : Statement (.leadinBit stop) := fun _ h => h
theorem leadinEnd (stop : Nat) : Statement (.leadinEnd stop) := fun _ h => h
theorem digitsBit (stop : Nat) : Statement (.digitsBit stop) := fun _ h => h
theorem digBegin (p : Bool) (stop : Nat) : Statement (.digBegin p stop) := fun _ h => h
theorem digSeparator (p : Bool) (stop : Nat) : Statement (.digSeparator p stop) := fun _ h => h
theorem digEnd (p : Bool) (stop : Nat) : Statement (.digEnd p stop) := fun _ h => h

theorem digData (v : Nibble) (p : Bool) (stop : Nat) : Statement (.digData v p stop) :=
  fun _ h => ((Bool.and_eq_true _ _).mp h).2

theorem digUnknown (v : Nibble) (p : Bool) (stop : Nat) : Statement (.digUnknown v p stop) :=
  fun _ h => ((Bool.and_eq_true _ _).mp h).2

theorem lrcBit (stop : Nat) : Statement (.lrcBit stop) := fun _ h => h
theorem lrcDigit (w : DigitWord) (stop : Nat) : Statement (.lrcDigit w stop) := fun _ h => h
theorem leadoutBit (stop : Nat) : Statement (.leadoutBit stop) := fun _ h => h
theorem leadoutEnd (stop : Nat) : Statement (.leadoutEnd stop) := fun _ h => h

end Sys2Proof.Laws.EncodeFits
end

