-- ==== Sys2Proof/Laws/Step.lean ====
section
/-! SUPPORT. What a step can fetch, and what a bit step can select, said once: the inversion lemmas that facts about every
step are split by. -/

namespace Sys2Proof.Machine

/-- The seven operations a step can perform, each with the conditions that select it (30_encoding.md R95). -/
theorem State.fetch_cases (s : State) :
    (s.port.rst = true ∧ s.fetch = .reset s.port.cfg)
      ∨ (s.port.rst = false ∧ s.port.smpValid = false ∧ s.fetch = .smpNone)
      ∨ (s.port.rst = false ∧ s.port.smpValid = true ∧ s.clkPrevV = false ∧ s.fetch = .smpSeed s.port.smp)
      ∨ (s.port.rst = false ∧ s.port.smpValid = true ∧ s.clkPrevV = true ∧ s.phase = .waitCapture
          ∧ detect s.clkPrev s.port.smp.clk = some s.cfg.edge ∧ s.fetch = .smpCapture s.port.smp)
      ∨ (s.port.rst = false ∧ s.port.smpValid = true ∧ s.clkPrevV = true ∧ s.phase = .waitCapture
          ∧ detect s.clkPrev s.port.smp.clk ≠ some s.cfg.edge ∧ s.fetch = .smpIgnore s.port.smp)
      ∨ (s.port.rst = false ∧ s.port.smpValid = true ∧ s.clkPrevV = true ∧ s.phase = .waitUpdate
          ∧ detect s.clkPrev s.port.smp.clk = some s.cfg.edge.opposite ∧ s.fetch = .smpUpdate s.port.smp)
      ∨ (s.port.rst = false ∧ s.port.smpValid = true ∧ s.clkPrevV = true ∧ s.phase = .waitUpdate
          ∧ detect s.clkPrev s.port.smp.clk ≠ some s.cfg.edge.opposite ∧ s.fetch = .smpHold s.port.smp) := by
  have hb : ∀ b : Bool, b = false ∨ b = true := by decide
  have hp : s.phase = .waitCapture ∨ s.phase = .waitUpdate := by cases s.phase <;> simp
  by_cases hc : detect s.clkPrev s.port.smp.clk = some s.cfg.edge <;>
    by_cases hu : detect s.clkPrev s.port.smp.clk = some s.cfg.edge.opposite <;>
    rcases hb s.port.rst with h1 | h1 <;> rcases hb s.port.smpValid with h2 | h2 <;>
    rcases hb s.clkPrevV with h3 | h3 <;> rcases hp with h4 | h4 <;>
    simp [State.fetch, decode, State.stepSel, decodeStep, h1, h2, h3, h4, hc, hu] <;>
    exact Classical.em _

/-- SMP_UPDATE performs the operation that steps 1 to 3 of the per-bit update select. -/
theorem exec_smpUpdate (smp : Sample) (s : State) :
    exec (.smpUpdate smp) s =
      runFrameOp smp.idx (decodeFrame (((s.closeBit smp).takeBit s.capBit s.capIdx smp.idx).bitSel smp.idx))
        ((s.closeBit smp).takeBit s.capBit s.capIdx smp.idx) := rfl

/-- The twelve ways step 4 of the per-bit update can go, each with the conditions that select it (41_frame_fsm.md R140,
R147). -/
theorem decodeFrame_cases (b : BitSel) :
    (b.state = .leadIn ∧ b.n = b.leadIn ∧ decodeFrame b = .leadinEnd)
      ∨ (b.state = .leadIn ∧ b.n ≠ b.leadIn ∧ decodeFrame b = .leadinBit)
      ∨ (b.state = .digits ∧ b.n ≠ 5 ∧ decodeFrame b = .digitsBit)
      ∨ (b.state = .digits ∧ b.n = 5 ∧ wordValue b.w = 11#4 ∧ decodeFrame b = .digBegin (wordParityBit b.w))
      ∨ (b.state = .digits ∧ b.n = 5 ∧ wordValue b.w = 13#4 ∧ decodeFrame b = .digSeparator (wordParityBit b.w))
      ∨ (b.state = .digits ∧ b.n = 5 ∧ wordValue b.w = 15#4 ∧ decodeFrame b = .digEnd (wordParityBit b.w))
      ∨ (b.state = .digits ∧ b.n = 5 ∧ nonControl (wordValue b.w) = true ∧ b.seenBegin = true
          ∧ decodeFrame b = .digData (wordValue b.w) (wordParityBit b.w))
      ∨ (b.state = .digits ∧ b.n = 5 ∧ nonControl (wordValue b.w) = true ∧ b.seenBegin = false
          ∧ decodeFrame b = .digUnknown (wordValue b.w) (wordParityBit b.w))
      ∨ (b.state = .lrc ∧ b.n = 5 ∧ decodeFrame b = .lrcDigit b.w)
      ∨ (b.state = .lrc ∧ b.n ≠ 5 ∧ decodeFrame b = .lrcBit)
      ∨ (b.state = .leadOut ∧ b.n = b.leadOut ∧ decodeFrame b = .leadoutEnd)
      ∨ (b.state = .leadOut ∧ b.n ≠ b.leadOut ∧ decodeFrame b = .leadoutBit) := by
  rcases b with ⟨st, n, li, lo, sb, w, e⟩
  cases st with
  | leadIn => by_cases h : n = li <;> simp [decodeFrame, h]
  | lrc => by_cases h : n = 5 <;> simp [decodeFrame, h]
  | leadOut => by_cases h : n = lo <;> simp [decodeFrame, h]
  | digits =>
    by_cases h : n = 5
    case neg => simp [decodeFrame, h]
    by_cases h1 : wordValue w = 11#4
    · simp [decodeFrame, decodeDigit, h, h1, codeBegin]
    by_cases h2 : wordValue w = 13#4
    · simp [decodeFrame, decodeDigit, h, h2, codeBegin, codeSeparator]
    by_cases h3 : wordValue w = 15#4
    · simp [decodeFrame, decodeDigit, h, h3, codeBegin, codeSeparator, codeEnd]
    cases sb <;> simp [decodeFrame, decodeDigit, h, h1, h2, h3, codeBegin, codeSeparator, codeEnd, nonControl]

/-- What has to hold where a bit step selects DIG_DATA (30_encoding.md R90). -/
theorem decodeFrame_digData {b : BitSel} {v : Nibble} {p : Bool} (h : decodeFrame b = .digData v p) :
    b.state = .digits ∧ b.n = 5 ∧ b.seenBegin = true ∧ nonControl (wordValue b.w) = true ∧ v = wordValue b.w := by
  rcases decodeFrame_cases b with h' | h' | h' | h' | h' | h' | h' | h' | h' | h' | h' | h' <;> simp_all

/-- Where a bit step selects DIG_DATA. -/
theorem decodeFrame_of_data {b : BitSel} (h1 : b.state = .digits) (h2 : b.n = 5) (h3 : b.seenBegin = true)
    (h4 : nonControl (wordValue b.w) = true) : decodeFrame b = .digData (wordValue b.w) (wordParityBit b.w) := by
  simp only [nonControl, Bool.and_eq_true, bne_iff_ne] at h4
  simp [decodeFrame, decodeDigit, h1, h2, h3, h4.1.1, h4.1.2, h4.2, codeBegin, codeEnd, codeSeparator]

end Sys2Proof.Machine
end

