-- ==== Sys2Proof/Tests/Slice0.lean ====
section
/-! SUPPORT. The model's own tests. Expected results come from the spec's tables and vectors (30_encoding.md R89, R95,
95_test_vectors.md), or are worked out by hand from the rule named. The witnesses show, for each statement with hypotheses,
a concrete input that meets them together. -/

namespace Sys2Proof.Tests

open Sys2Proof.Machine

/-! ### Helpers -/

/-- A small block: indices of 8 bits, counts of 4 bits, two card digits. -/
def params : Params := { tsW := 8, cntW := 4, cardCap := 2 }

/-- The default edge and polarity, lead fields of two bits, flagged parity. -/
def cfg : Cfg := { leadIn := 2, leadOut := 2, edge := .falling, pol := .inverted, psev := .flagged, fold := .separate }

/-- A block in Decoder State `st` with `n` bits in its buffer, waiting for a capture edge with the clock high, whose digit
span, if open, began at 31. No register holds a draw. -/
def block (st : FrameState) (n : Nat) : State :=
  { params := params, inputs := []
    clkPrev := true, clkPrevV := true, phase := .waitCapture, capIdx := 39, capBit := true
    state := st, bitcnt := n, shreg := 0#5
    digitStart := 31, digitStartV := decide (0 < n), cardStart := 31, cardStartV := true, cardEnd := 0
    cardLen := 0, cardBuf := [0#4, 0#4], lrcAcc := 0#4, lrcExp := lrcExpected 0#4, seenBegin := false
    cfg := cfg, fault := .clear, out := noOutput, stream := [], draws := 0 }

/-- That block with a bit captured at 39 and the clock low: it waits for the update edge. -/
def caught (st : FrameState) (n : Nat) : State := { block st n with phase := .waitUpdate, clkPrev := false }

/-- The input that presents a sample. -/
def sample (idx : Nat) (clk dat : Bool) : Input := Sample.present { idx := idx, clk := clk, dat := dat }

/-- The block with inputs to come. -/
def feed (is : List Input) (s : State) : State := { s with inputs := is }

/-- The input of a reset step. -/
def resetInput (c : Cfg) : Input := { rst := true, cfg := c, smpValid := true, smp := Sample.none }

/-- The outcome is a next state with property `p`. -/
def goesTo (p : State → Bool) : Host.Outcome State Fault Refusal → Bool
  | .next t => p t
  | _ => false

/-- The outcome is CardOverflow with the mark set. -/
def overflows : Host.Outcome State Fault Refusal → Bool
  | .fault (.cardOverflow t) => t.fault == .cardOverflow
  | _ => false

/-- The outcome is a refusal for an illegal configuration. -/
def refuses : Host.Outcome State Fault Refusal → Bool
  | .refused .illegalConfig => true
  | _ => false

/-! ### Well-formedness: an ill-formed term for each check -/

/-- R8: TS_W >= 1, CNT_W >= 3, CARD_CAP >= 1. -/
theorem test_params_illegal :
    Params.legal { params with tsW := 0 } = false ∧ Params.legal { params with cntW := 2 } = false
      ∧ Params.legal { params with cardCap := 0 } = false := by decide

/-- R47: both lead lengths positive. R22: a length of 16 has five bits, one more than CNT_W = 4. -/
theorem test_cfg_ill_formed :
    Cfg.legal { cfg with leadIn := 0 } = false ∧ Cfg.legal { cfg with leadOut := 0 } = false
      ∧ Cfg.fits params { cfg with leadIn := 16 } = false ∧ Cfg.fits params { cfg with leadOut := 16 } = false := by decide

/-- R21: an index of 256 has nine bits, one more than TS_W = 8. -/
theorem test_index_ill_formed :
    Instr.wf params (.smpSeed { idx := 256, clk := true, dat := true }) = false
      ∧ Instr.wf params (.smpCapture { idx := 256, clk := true, dat := true }) = false
      ∧ Instr.wf params (.smpIgnore { idx := 256, clk := true, dat := true }) = false
      ∧ Instr.wf params (.smpUpdate { idx := 256, clk := true, dat := true }) = false
      ∧ Instr.wf params (.smpHold { idx := 256, clk := true, dat := true }) = false
      ∧ [Instr.leadinBit 256, .leadinEnd 256, .digitsBit 256, .digBegin true 256, .digSeparator true 256, .digEnd true 256,
          .digData 1#4 true 256, .digUnknown 1#4 true 256, .lrcBit 256, .lrcDigit 0#5 256, .leadoutBit 256,
          .leadoutEnd 256].any (Instr.wf params) = false := by decide

/-- R90: a Data or Unknown digit has none of the values 11, 13 and 15. R22: RESET with a length that does not fit. -/
theorem test_operand_ill_formed :
    Instr.wf params (.digData 11#4 false 0) = false ∧ Instr.wf params (.digUnknown 13#4 false 0) = false
      ∧ Instr.wf params (.digData 15#4 false 0) = false ∧ Instr.wf params (.reset { cfg with leadIn := 16 }) = false := by
  decide

/-! ### Decoding: each constructor, from the selectors of R95 and the words of R89 -/

/-- R95, the STEP rows, with CAPTURE_EDGE = Rising for the edges. -/
theorem test_decode_step_rows :
    let m : Sample := { idx := 7, clk := true, dat := false }
    let sel : StepSel := { rst := false, smpValid := true, clkPrevV := true, phase := .waitCapture, edge := some .rising,
                           cfgEdge := .rising, cfg := cfg, smp := m }
    decode (.step { sel with rst := true }) = .reset cfg
      ∧ decode (.step { sel with smpValid := false }) = .smpNone
      ∧ decode (.step { sel with clkPrevV := false }) = .smpSeed m
      ∧ decode (.step sel) = .smpCapture m
      ∧ decode (.step { sel with edge := some .falling }) = .smpIgnore m
      ∧ decode (.step { sel with edge := none }) = .smpIgnore m
      ∧ decode (.step { sel with phase := .waitUpdate, edge := some .falling }) = .smpUpdate m
      ∧ decode (.step { sel with phase := .waitUpdate, edge := none }) = .smpHold m
      ∧ decode (.step { sel with phase := .waitUpdate }) = .smpHold m := by decide

/-- R95, the BIT rows, at the counts just below and at their limits (3 in the lead-in, 4 in the lead-out). -/
theorem test_decode_bit_rows :
    let sel : BitSel := { state := .leadIn, n := 2, leadIn := 3, leadOut := 4, seenBegin := false, w := 0#5, stop := 9 }
    decode (.bit sel) = .leadinBit 9 ∧ decode (.bit { sel with n := 3 }) = .leadinEnd 9
      ∧ decode (.bit { sel with state := .digits, n := 4 }) = .digitsBit 9
      ∧ decode (.bit { sel with state := .lrc, n := 4 }) = .lrcBit 9
      ∧ decode (.bit { sel with state := .leadOut, n := 3 }) = .leadoutBit 9
      ∧ decode (.bit { sel with state := .leadOut, n := 4 }) = .leadoutEnd 9 := by decide

/-- The words p b3 b2 b1 b0 of R89 for b, d and f, and their even-parity partners. -/
theorem test_decode_control_words :
    decode (digitSel false 0b01011#5 9) = .digBegin false 9 ∧ decode (digitSel true 0b11011#5 9) = .digBegin true 9
      ∧ decode (digitSel false 0b01101#5 9) = .digSeparator false 9
      ∧ decode (digitSel true 0b11101#5 9) = .digSeparator true 9
      ∧ decode (digitSel false 0b11111#5 9) = .digEnd true 9 ∧ decode (digitSel true 0b01111#5 9) = .digEnd false 9 := by
  decide

/-- The words of R89 for 0, 1, 8, a, c and e, before and after a Begin. -/
theorem test_decode_data_words :
    decode (digitSel true 0b10000#5 9) = .digData 0#4 true 9 ∧ decode (digitSel true 0b00001#5 9) = .digData 1#4 false 9
      ∧ decode (digitSel true 0b01000#5 9) = .digData 8#4 false 9
      ∧ decode (digitSel true 0b11010#5 9) = .digData 10#4 true 9
      ∧ decode (digitSel false 0b11100#5 9) = .digUnknown 12#4 true 9
      ∧ decode (digitSel false 0b01110#5 9) = .digUnknown 14#4 false 9 := by decide

/-- R91: in state Lrc every word is the LRC digit, a control code too. -/
theorem test_decode_lrc_word :
    decode (.bit { state := .lrc, n := 5, leadIn := 1, leadOut := 1, seenBegin := true, w := 0b01011#5, stop := 9 })
      = .lrcDigit 0b01011#5 9 := by decide

/-- The sixteen well-formed words of R89 in the order of their values. -/
theorem test_word_table :
    (List.range 16).map (fun v => (digitWord (goodParityBit (BitVec.ofNat 4 v)) (BitVec.ofNat 4 v)).toNat)
      = [0x10, 0x01, 0x02, 0x13, 0x04, 0x15, 0x16, 0x07, 0x08, 0x19, 0x1A, 0x0B, 0x1C, 0x0D, 0x0E, 0x1F] := by decide

/-- A word with a sixth bit is no digit word. -/
theorem test_table_word_rejected : decodeTableWord 8 0x20 = none := by decide

/-- The first step after reset performs the operation of the table word that was placed (R95, v = 11, 13, 15, other). -/
theorem test_placed_words_run :
    (State.reset.withFetchWord 8 0x0B).fetch = .smpUpdate { idx := 1, clk := true, dat := false }
      ∧ goesTo (fun t => t.seenBegin && t.out.dig.map DigOut.role == some .beginDigit)
          (step (State.reset.withFetchWord 8 0x0B)) = true
      ∧ goesTo (fun t => t.out.card.map CardOut.cause == some .separator) (step (State.reset.withFetchWord 8 0x0D)) = true
      ∧ goesTo (fun t => t.state == .lrc) (step (State.reset.withFetchWord 8 0x0F)) = true
      ∧ goesTo (fun t => t.out.dig.map DigOut.role == some .unknown) (step (State.reset.withFetchWord 8 0x03)) = true := by
  decide

/-! ### One step, against the vectors of 95_test_vectors.md -/

/-- S6 step 3 and R1: a reset in the middle of a bit drops it, reads no sample and latches the configuration. -/
theorem test_reset_drops_bit :
    goesTo (fun t => t.clkPrevV == false && t.phase == .waitCapture && t.out == noOutput && t.state == .leadIn
        && t.bitcnt == 0 && t.cfg == { cfg with edge := .rising })
      (step (feed [resetInput { cfg with edge := .rising }] (caught .digits 3))) = true := by decide

/-- R2: a lead length of 0 is refused. -/
theorem test_reset_refused :
    refuses (step (feed [resetInput { cfg with leadIn := 0 }] (block .leadIn 0))) = true
      ∧ refuses (step (feed [resetInput { cfg with leadOut := 0 }] (block .leadIn 0))) = true := by decide

/-- S5: no sample, no change. -/
theorem test_no_sample : goesTo (fun t => t == caught .digits 3) (step (feed [Input.idle] (caught .digits 3))) = true := by
  decide

/-- S2 step 1: the first sample only seeds, though the clock is at the level after a capture edge. -/
theorem test_seed :
    goesTo (fun t => t.clkPrev == false && t.clkPrevV && t.phase == .waitCapture && t.out == noOutput)
      (step (feed [sample 0 false false] { block .leadIn 0 with clkPrevV := false })) = true := by decide

/-- S1 step 3: a falling edge with data 0, inverted. -/
theorem test_capture :
    goesTo (fun t => t.capIdx == 2 && t.capBit && t.phase == .waitUpdate && t.clkPrev == false && t.out == noOutput)
      (step (feed [sample 2 false false] (block .leadIn 0))) = true := by decide

/-- S3 step 2: a rising edge with data 1, normal polarity. -/
theorem test_capture_rising :
    goesTo (fun t => t.capIdx == 1 && t.capBit && t.phase == .waitUpdate)
      (step (feed [sample 1 true true]
        { block .leadIn 0 with clkPrev := false, cfg := { cfg with edge := .rising, pol := .normal } })) = true := by decide

/-- S2 step 2: a rising edge while waiting for a falling one is ignored. -/
theorem test_ignore :
    goesTo (fun t => t == block .leadIn 0) (step (feed [sample 1 true false] { block .leadIn 0 with clkPrev := false }))
      = true := by decide

/-- S1 step 4: a data change between the two edges is not seen. -/
theorem test_hold :
    goesTo (fun t => t == caught .leadIn 0) (step (feed [sample 3 false true] (caught .leadIn 0))) = true := by decide

/-- S1 step 5: the update edge delivers BIT(1, 2, 4), which opens both spans at 2. -/
theorem test_update :
    goesTo (fun t => t.phase == .waitCapture && t.clkPrev && t.shreg == 0b10000#5 && t.bitcnt == 1 && t.digitStart == 2
        && t.digitStartV && t.cardStart == 2 && t.out.bit == some { val := true, start := 2, stop := 4 })
      (step (feed [sample 4 true true] { caught .leadIn 0 with capIdx := 2, cardStartV := false })) = true := by decide

/-- R145: bit 9 of a default packet, at [19, 20), ends the lead-in with the marker (1, 20). -/
theorem test_leadin_end :
    goesTo (fun t => t.state == .digits && t.bitcnt == 0 && t.digitStartV == false
        && t.out.mark == some { kind := .leadIn, start := 1, stop := 20 })
      (step (feed [sample 20 true false]
        { caught .leadIn 9 with capIdx := 19, digitStart := 1, cfg := { cfg with leadIn := 10 } })) = true := by decide

/-- R144: bit 8 of that packet only counts. -/
theorem test_leadin_bit :
    goesTo (fun t => t.state == .leadIn && t.bitcnt == 9 && t.out.mark == none)
      (step (feed [sample 18 true false] { caught .leadIn 8 with capIdx := 17, cfg := { cfg with leadIn := 10 } }))
      = true := by decide

/-- R148: DIG(Begin, 11, 21, 30); R215: a digit string that is pending is kept. -/
theorem test_dig_begin :
    goesTo (fun t => t.out.dig == some { role := .beginDigit, val := 11#4, start := 21, stop := 30 } && t.seenBegin
        && t.cardStartV == false && t.cardLen == 1 && t.lrcAcc == 11#4 && t.out.perr == none)
      (exec (.digBegin false 30) { block .digits 5 with digitStart := 21, cardLen := 1 }) = true := by decide

/-- D4: an even-parity Begin still acts. -/
theorem test_dig_begin_even :
    goesTo (fun t => t.seenBegin && t.out.par == some { odd := false, start := 21, stop := 30 }
        && t.out.dig.map DigOut.role == some .beginDigit)
      (exec (.digBegin true 30) { block .digits 5 with digitStart := 21 }) = true := by decide

/-- R213: the string 1 2 3 over (31, 60) is flushed by the Separator at [61, 70). -/
theorem test_dig_separator :
    goesTo (fun t => t.out.card == some { cause := .separator, start := 31, stop := 60, n := 3, digits := [1#4, 2#4, 3#4] }
        && t.out.dig == some { role := .separator, val := 13#4, start := 61, stop := 70 }
        && t.cardLen == 0 && t.cardStartV == false && t.state == .digits)
      (exec (.digSeparator false 70)
        { block .digits 5 with digitStart := 61, cardEnd := 60, cardLen := 3, cardBuf := [1#4, 2#4, 3#4, 9#4] }) = true := by
  decide

/-- C2: a Separator before any Begin flushes the "No Data" form, from the first lead-in bit. -/
theorem test_dig_separator_empty :
    goesTo (fun t => t.out.card.map CardOut.start == some 1 && t.out.card.map CardOut.n == some 0
        && t.stream.getLast?.map Record.text == some .noData)
      (exec (.digSeparator false 30) { block .digits 5 with digitStart := 21, cardStart := 1 }) = true := by decide

/-- R150: the End digit of the reference packet; with it the accumulator is 8 and the expected LRC 01000. -/
theorem test_dig_end :
    goesTo (fun t => t.out.card == some { cause := .endDigit, start := 71, stop := 90, n := 2, digits := [4#4, 5#4] }
        && t.out.dig == some { role := .endDigit, val := 15#4, start := 91, stop := 100 }
        && t.lrcExp == 0b01000#5 && t.lrcAcc == 8#4 && t.state == .lrc)
      (exec (.digEnd true 100)
        { block .digits 5 with digitStart := 91, cardStart := 71, cardEnd := 90, cardLen := 2, cardBuf := [4#4, 5#4]
                               lrcAcc := 11#4 ^^^ 1#4 ^^^ 2#4 ^^^ 3#4 ^^^ 13#4 ^^^ 4#4 ^^^ 5#4 }) = true := by decide

/-- D3, Flagged and Folded: an even Data digit gives Even, Parity Error in category Error, and Digit "1", in this order. -/
theorem test_dig_data_even :
    goesTo (fun t => t.cardBuf == [1#4, 0#4] && t.cardLen == 1 && t.cardEnd == 40
        && t.stream == [{ start := 31, stop := 40, category := .parity, text := .even },
                        { start := 31, stop := 40, category := .error, text := .parityError },
                        { start := 31, stop := 40, category := .digit, text := .hex 1#4 }])
      (exec (.digData 1#4 true 40) { block .digits 5 with cfg := { cfg with fold := .folded }, seenBegin := true })
      = true := by decide

/-- C5: with CARD_CAP = 2 the third Data digit overflows. -/
theorem test_dig_data_overflow :
    overflows (exec (.digData 3#4 true 60) { block .digits 5 with seenBegin := true, cardLen := 2 }) = true := by decide

/-- R152: an Unknown 0; D2: its category is Error under Folded. -/
theorem test_dig_unknown :
    goesTo (fun t => t.out.dig == some { role := .unknown, val := 0#4, start := 21, stop := 30 } && t.cardLen == 0
        && t.stream.getLast?.map Record.category == some .error && t.state == .digits)
      (exec (.digUnknown 0#4 true 30) { block .digits 5 with digitStart := 21, cfg := { cfg with fold := .folded } })
      = true := by decide

/-- L1-5, the uncorrupted row: PAR Odd, DIG(Lrc, 8), no LRCERR. -/
theorem test_lrc_digit :
    goesTo (fun t => t.out.lrcerr == none && t.out.par == some { odd := true, start := 101, stop := 110 }
        && t.out.dig == some { role := .lrc, val := 8#4, start := 101, stop := 110 } && t.state == .leadOut)
      (exec (.lrcDigit 0b01000#5 110) { block .lrc 5 with digitStart := 101, lrcExp := 0b01000#5 }) = true := by decide

/-- L1-5, k = 4 under Flagged: LRCERR, PAR Even, PERR, DIG(Lrc, 8), in this order. -/
theorem test_lrc_digit_corrupt :
    goesTo (fun t => t.stream.map Record.text == [.lrcError, .even, .parityError, .hex 8#4])
      (exec (.lrcDigit 0b11000#5 110) { block .lrc 5 with digitStart := 101, lrcExp := 0b01000#5 }) = true := by decide

/-- R157: bit 64 of the reference packet gives MARK(LeadOut, 111, 130) and the full reset; `card_end` is not written. -/
theorem test_leadout_end :
    goesTo (fun t => t.out.mark == some { kind := .leadOut, start := 111, stop := 130 } && t.state == .leadIn
        && t.bitcnt == 0 && t.lrcAcc == 0#4 && t.seenBegin == false && t.cardStartV == false && t.cardEnd == 90)
      (exec (.leadoutEnd 130)
        { block .leadOut 10 with digitStart := 111, cardEnd := 90, lrcAcc := 8#4, seenBegin := true }) = true := by decide

/-- F3: six bits of the lead-out counted so far, and one more. -/
theorem test_leadout_bit :
    goesTo (fun t => t.state == .leadOut && t.bitcnt == 6)
      (step (feed [sample 94 true false] { caught .leadOut 5 with capIdx := 93, cfg := { cfg with leadOut := 10 } }))
      = true := by decide

/-- R146 and R154: a fourth bit only counts; the fifth bit of a digit is 5 bits in the shift register, oldest lowest. -/
theorem test_fourth_bit :
    goesTo (fun t => t.state == .digits && t.bitcnt == 4 && t.out.dig == none)
        (step (feed [sample 40 true false] (caught .digits 3))) = true
      ∧ goesTo (fun t => t.state == .lrc && t.bitcnt == 4 && t.out.dig == none)
        (step (feed [sample 40 true false] (caught .lrc 3))) = true := by decide

/-- R251 and R258: the conditions of L1-5, k = 4, of an even Unknown digit and of the two stops, by their codes. -/
theorem test_conditions :
    (conditions (exec (.lrcDigit 0b11000#5 110) { block .lrc 5 with lrcExp := 0b01000#5 })).map Condition.code = [1, 2, 3]
      ∧ (conditions (exec (.digUnknown 0#4 false 30) (block .digits 5))).map Condition.code = [1, 2, 4]
      ∧ (conditions (exec (.digData 3#4 true 60) { block .digits 5 with cardLen := 2 })).map Condition.code = [6]
      ∧ (conditions (exec (.reset { cfg with leadIn := 0 }) (block .digits 5))).map Condition.code = [7]
      ∧ (block .digits 3).exhausted = true ∧ Condition.streamExhausted.code = 5 := by decide

/-- L1-4: the bits of PACKET(9, 8, 7, 13, 0, 6). (The bits that L1-3 and P1 print for their digit 4 are not those of R89;
log entry 10.) -/
theorem test_packet_bits :
    (expand 0#4 (packet 10 10 [9#4, 8#4, 7#4, 13#4, 0#4, 6#4])).map Bool.toNat
      = [0, 0, 0, 0, 0, 0, 0, 0, 0, 0] ++ [1, 1, 0, 1, 0] ++ [1, 0, 0, 1, 1] ++ [0, 0, 0, 1, 0] ++ [1, 1, 1, 0, 0]
        ++ [1, 0, 1, 1, 0] ++ [0, 0, 0, 0, 1] ++ [0, 1, 1, 0, 1] ++ [1, 1, 1, 1, 1] ++ [1, 0, 0, 1, 1]
        ++ [0, 0, 0, 0, 0, 0, 0, 0, 0, 0] := by decide

/-- P3: the 50 bits of its program; L1-5: the corrupted LRC digits for k = 0 and k = 4. -/
theorem test_directive_bits :
    (expand 0#4 [.fill 3 true, .dig 0#4, .dig 13#4, .dig 11#4, .dig 10#4, .digp 12#4 false, .dig 11#4, .dig 14#4,
        .dig 15#4, .lrc, .fill 2 true]).map Bool.toNat
      = [1, 1, 1] ++ [0, 0, 0, 0, 1] ++ [1, 0, 1, 1, 0] ++ [1, 1, 0, 1, 0] ++ [0, 1, 0, 1, 1] ++ [0, 0, 1, 1, 0]
        ++ [1, 1, 0, 1, 0] ++ [0, 1, 1, 1, 0] ++ [1, 1, 1, 1, 1] ++ [0, 1, 0, 1, 1] ++ [1, 1]
      ∧ (expand 8#4 [.lrcx 0, .bits [true], .lrcx 4]).map Bool.toNat = [1, 0, 0, 1, 0] ++ [1] ++ [0, 0, 0, 1, 1] := by
  decide

/-- P1: under the defaults bit 0 (x = 0) is (1, 0, 1), (2, 1, 1). -/
theorem test_wave :
    wave .falling .inverted [false]
      = [{ idx := 0, clk := true, dat := false }, { idx := 1, clk := false, dat := true },
         { idx := 2, clk := true, dat := true }] := by decide

/-! ### Witnesses: concrete inputs that meet the hypotheses of each statement, clause by clause -/

/-- Operands at the ends of their ranges: the highest index, the highest count, the values 10 and 14 beside the codes. -/
theorem test_witness_DecodeEncodeRoundTrip :
    Instr.wf params (.reset { cfg with leadIn := 15, leadOut := 15 }) = true
      ∧ Instr.wf params (.smpUpdate { idx := 255, clk := true, dat := true }) = true
      ∧ Instr.wf params (.digData 14#4 true 255) = true ∧ Instr.wf params (.digUnknown 10#4 false 0) = true := by decide

theorem test_witness_DecodedOperationIsWellFormed :
    selectorFits params (encode (.smpHold { idx := 255, clk := true, dat := true })) = true
      ∧ selectorFits params (encode (.reset { cfg with leadIn := 15 })) = true
      ∧ selectorFits params (digitSel true 0b01110#5 255) = true := by decide

theorem test_witness_CardDigitsArePackedInOrder : ([1#4, 2#4, 3#4] : List Nibble)[2]? = some 3#4 := by decide

/-- One state for each of the five clauses; in the fourth and fifth both a qualifying and another sample. -/
theorem test_witness_SamplerSelection :
    ((feed [resetInput cfg] (caught .lrc 3)).inputs = [resetInput cfg] ∧ (resetInput cfg).rst = true)
      ∧ (Input.idle.rst = false ∧ Input.idle.smpValid = false)
      ∧ ((sample 255 false true).rst = false ∧ (sample 255 false true).smpValid = true)
      ∧ State.clkPrevV { block .leadIn 0 with clkPrevV := false } = false
      ∧ ((block .leadIn 0).clkPrevV = true ∧ (block .leadIn 0).phase = .waitCapture
          ∧ (block .leadIn 0).clkPrev = !(block .leadIn 0).cfg.edge.levelAfter)
      ∧ ((caught .leadIn 0).clkPrevV = true ∧ (caught .leadIn 0).phase = .waitUpdate
          ∧ (caught .leadIn 0).clkPrev = (caught .leadIn 0).cfg.edge.levelAfter) := by decide

/-- For every clause a selector, with values next to the control codes. -/
theorem test_witness_FrameSelection :
    let sel : BitSel := { state := .digits, n := 5, leadIn := 3, leadOut := 4, seenBegin := true, w := 0b01011#5, stop := 9 }
    (sel.state = .digits ∧ sel.n = 5 ∧ (wordValue sel.w).toNat = 11)
      ∧ (wordValue 0b01101#5).toNat = 13 ∧ (wordValue 0b11111#5).toNat = 15
      ∧ (∀ w ∈ [0b11010#5, 0b11100#5, 0b01110#5],
          (wordValue w).toNat ≠ 11 ∧ (wordValue w).toNat ≠ 13 ∧ (wordValue w).toNat ≠ 15)
      ∧ BitSel.n { sel with n := 4 } ≠ 5
      ∧ BitSel.state { sel with state := .leadIn } = .leadIn ∧ BitSel.state { sel with state := .lrc } = .lrc
      ∧ BitSel.state { sel with state := .leadOut } = .leadOut := by decide

theorem test_witness_NoInputHoldsState : (caught .lrc 4).inputs = [] := by decide

theorem test_witness_ResetEffect :
    (feed [resetInput cfg] (caught .lrc 3)).port.rst = true
      ∧ 1 ≤ Cfg.leadIn { cfg with leadIn := 1 } ∧ 1 ≤ Cfg.leadOut { cfg with leadOut := 1 } := by decide

/-- R256: `rst` with a lead length of 0 on the pins, for each of the two lengths. -/
theorem test_witness_ResetRefusesZeroLength :
    (let s := feed [resetInput { cfg with leadIn := 0 }] (block .leadIn 0);
      s.port.rst = true ∧ s.port.cfg.leadIn = 0)
      ∧ (let s := feed [resetInput { cfg with leadOut := 0 }] (block .leadIn 0);
        s.port.rst = true ∧ s.port.cfg.leadOut = 0) := by decide

theorem test_witness_LaunchMeetsInvariant :
    Params.legal { tsW := 1, cntW := 3, cardCap := 1 } = true
      ∧ Cfg.legal { cfg with leadIn := 1, leadOut := 7 } = true
      ∧ Cfg.fits { tsW := 1, cntW := 3, cardCap := 1 } { cfg with leadIn := 1, leadOut := 7 } = true := by decide

theorem test_witness_SmpNoneHoldsState :
    (feed [Input.idle] (caught .lrc 3)).port.rst = false ∧ (feed [Input.idle] (caught .lrc 3)).port.smpValid = false := by
  decide

theorem test_witness_SmpSeedEffect :
    let s := feed [sample 255 false true] { block .leadIn 0 with clkPrevV := false }
    s.port.rst = false ∧ s.port.smpValid = true ∧ s.clkPrevV = false := by decide

theorem test_witness_SmpCaptureEffect :
    let s := feed [sample 255 false true] (block .leadIn 0)
    s.port.rst = false ∧ s.port.smpValid = true ∧ s.clkPrevV = true ∧ s.phase = .waitCapture
      ∧ detect s.clkPrev s.port.smp.clk = some s.cfg.edge := by decide

theorem test_witness_NonEdgeWritesOnlyClkPrev :
    (let s := feed [sample 41 true true] (block .leadIn 0);
      s.port.rst = false ∧ s.port.smpValid = true ∧ s.clkPrevV = true ∧ s.phase = .waitCapture
        ∧ detect s.clkPrev s.port.smp.clk ≠ some s.cfg.edge)
      ∧ (let s := feed [sample 41 false true] (caught .leadIn 0);
        s.port.rst = false ∧ s.port.smpValid = true ∧ s.clkPrevV = true ∧ s.phase = .waitUpdate
          ∧ detect s.clkPrev s.port.smp.clk ≠ some s.cfg.edge.opposite)
      ∧ SamplerConsistent (feed [sample 41 false true] (caught .leadIn 0)) ∧ (caught .leadIn 0).phase = .waitUpdate
      ∧ ∃ t, step (feed [sample 41 false true] (caught .leadIn 0)) = .next t := by
  unfold SamplerConsistent
  exact ⟨by decide, by decide, by decide, by decide, _, rfl⟩

/-- The string one digit short of full with a Data digit, and full with a Separator: both complete. -/
theorem test_witness_SmpUpdateCompletes :
    (let s : State := { caught .digits 4 with seenBegin := true, cardLen := 1, shreg := 0b00010#5 };
      ¬(s.state = .digits ∧ s.bitcnt = 4 ∧ s.seenBegin = true ∧ s.cardLen = s.params.cardCap
        ∧ nonControl (wordValue (shiftIn s.capBit s.shreg)) = true))
      ∧ (let s : State := { caught .digits 4 with seenBegin := true, cardLen := 2, shreg := 0b11010#5 };
        ¬(s.state = .digits ∧ s.bitcnt = 4 ∧ s.seenBegin = true ∧ s.cardLen = s.params.cardCap
          ∧ nonControl (wordValue (shiftIn s.capBit s.shreg)) = true)) := by decide

theorem test_witness_SmpUpdateOverflows :
    let s : State := { caught .digits 4 with seenBegin := true, cardLen := 2, shreg := 0b11100#5 }
    s.state = .digits ∧ s.bitcnt = 4 ∧ s.seenBegin = true ∧ s.cardLen = s.params.cardCap
      ∧ nonControl (wordValue (shiftIn s.capBit s.shreg)) = true := by decide

theorem test_witness_BitBelowLimitOnlyCounts :
    (caught .leadIn 0).bitcnt + 1 < countLimit (caught .leadIn 0) ∧ (caught .digits 3).bitcnt + 1 < countLimit (caught .digits 3)
      ∧ (caught .lrc 3).bitcnt + 1 < countLimit (caught .lrc 3)
      ∧ (caught .leadOut 0).bitcnt + 1 < countLimit (caught .leadOut 0) := by decide

/-- Selectors for the decoding clauses of the statements about LEADIN_END, LEADOUT_END, the digits and LRC_DIGIT. -/
theorem test_witness_operation_selectors :
    let sel : BitSel := { state := .digits, n := 5, leadIn := 5, leadOut := 5, seenBegin := true, w := 0b01110#5, stop := 9 }
    (BitSel.state { sel with state := .leadIn } = .leadIn ∧ sel.n = sel.leadIn)
      ∧ (BitSel.state { sel with state := .leadOut } = .leadOut ∧ sel.n = sel.leadOut)
      ∧ (sel.state = .digits ∧ sel.n = 5 ∧ nonControl (wordValue sel.w) = true ∧ sel.seenBegin = true)
      ∧ BitSel.seenBegin { sel with seenBegin := false } = false
      ∧ (wordValue 0b11011#5).toNat = 11 ∧ (wordValue 0b11101#5).toNat = 13 ∧ (wordValue 0b01111#5).toNat = 15
      ∧ (BitSel.state { sel with state := .lrc } = .lrc ∧ sel.n = 5) := by decide

/-- A bit step with an End digit: it writes the expected LRC and enters Lrc. -/
theorem test_witness_DigEndEffect :
    (feed [sample 40 true false] { caught .digits 4 with shreg := 0b11110#5 }).port.rst = false
      ∧ goesTo (fun t => t.lrcExp != lrcExpected 0#4 && t.state == .lrc)
          (step (feed [sample 40 true false] { caught .digits 4 with shreg := 0b11110#5 })) = true := by decide

/-- The string one digit short of full, and full. -/
theorem test_witness_DigDataEffect :
    State.cardLen { block .digits 5 with cardLen := 1 } ≠ (block .digits 5).params.cardCap
      ∧ State.cardLen { block .digits 5 with cardLen := 2 } = (block .digits 5).params.cardCap := by decide

theorem test_witness_DigDataStoresOneElement :
    CardFits { block .digits 5 with cardLen := 1 }
      ∧ ∃ t, exec (.digData 14#4 true 40) { block .digits 5 with cardLen := 1 } = .next t :=
  ⟨by unfold CardFits; decide, _, rfl⟩

/-- Bit 3 of a list, and a list with its values in another order. -/
theorem test_witness_AccumulatorIsPerBitParity :
    3 < 4 ∧ List.Perm ([11#4, 1#4, 2#4] : List Nibble) [2#4, 11#4, 1#4] := by decide

theorem test_witness_LrcSingleBitCorruption :
    0 < 5 ∧ 4 < 5 ∧ State.lrcExp { block .lrc 5 with lrcExp := 0b01000#5 } = lrcExpected 8#4 := by decide

/-- Steps that go on: with MARK; with PAR, PERR, DIG and CARD; with LRCERR; with BIT alone; with no sample. -/
theorem test_witness_ChannelCombinations :
    goesTo (fun t => t.out.mark.isSome) (step (feed [sample 40 true false] (caught .leadIn 1))) = true
      ∧ goesTo (fun t => t.out.perr.isSome && t.out.card.isSome)
          (step (feed [sample 40 true false] { caught .digits 4 with shreg := 0b11010#5 })) = true
      ∧ goesTo (fun t => t.out.lrcerr.isSome) (step (feed [sample 40 true false] (caught .lrc 4))) = false
      ∧ goesTo (fun t => t.out.lrcerr.isSome) (step (feed [sample 40 true false] { caught .lrc 4 with capBit := false }))
        = true
      ∧ goesTo (fun t => t.out.bit.isSome) (step (feed [sample 40 true false] (caught .leadOut 0))) = true
      ∧ (feed [Input.idle] (block .lrc 0)).fetch = .smpNone := by decide

theorem test_witness_StreamGrowsByAssertedChannels :
    ∃ t, step (feed [sample 40 true false] { caught .digits 4 with shreg := 0b11010#5 }) = .next t := ⟨_, rfl⟩

/-- The invariant holds in the middle of a digit of a packet, and the step completes that digit. -/
theorem test_witness_StepKeepsInvariant :
    Inv (feed [sample 255 true false] (caught .digits 4))
      ∧ ∃ t, step (feed [sample 255 true false] (caught .digits 4)) = .next t := by
  refine ⟨⟨?_, ?_, ?_, ?_, ?_, ?_, ?_, ?_⟩, _, rfl⟩
  · unfold ParamsLegal; decide
  · unfold CfgLegal; decide
  · unfold CountBelowLimit; decide
  · unfold DigitSpanOpen; decide
  · unfold CardFits; decide
  · unfold IndicesFit; decide
  · unfold SamplerConsistent; decide
  · unfold PacketConsistent; decide

/-- A reset; a bit step that reaches the limit in LeadIn, in Digits with an End digit, and in Digits with another digit. -/
theorem test_witness_FrameStateTransitions :
    (feed [resetInput cfg] (caught .lrc 3)).port.rst = true
      ∧ goesTo (fun t => t.state == .leadIn) (step (feed [resetInput cfg] (caught .lrc 3))) = true
      ∧ (caught .leadIn 1).bitcnt + 1 = countLimit (caught .leadIn 1)
      ∧ (caught .digits 4).bitcnt + 1 = countLimit (caught .digits 4)
      ∧ wordValue (shiftIn true 0b11110#5) = 15#4
      ∧ goesTo (fun t => t.state == .lrc) (step (feed [sample 40 true false] { caught .digits 4 with shreg := 0b11110#5 }))
        = true
      ∧ wordValue (shiftIn true 0b11100#5) ≠ 15#4
      ∧ goesTo (fun t => t.state == .digits)
          (step (feed [sample 40 true false] { caught .digits 4 with shreg := 0b11100#5 })) = true := by decide

theorem test_witness_OnlyResetWritesConfiguration :
    (∃ t, step (feed [resetInput { cfg with pol := .normal }] (caught .lrc 3)) = .next t)
      ∧ ∃ t, step (feed [sample 40 true false] (caught .lrc 3)) = .next t := ⟨⟨_, rfl⟩, _, rfl⟩

/-- A Begin digit that sets `seen_begin`, and a lead-out's last bit that clears it. -/
theorem test_witness_SeenBeginIsSetByBegin :
    (feed [sample 40 true false] { caught .digits 4 with shreg := 0b10110#5 }).port.rst = false
      ∧ goesTo (fun t => t.seenBegin)
          (step (feed [sample 40 true false] { caught .digits 4 with shreg := 0b10110#5 })) = true
      ∧ goesTo (fun t => !t.seenBegin) (step (feed [sample 40 true false] { caught .leadOut 1 with seenBegin := true }))
        = true := by decide

theorem test_witness_FlushBeforeBeginIsNoData :
    PacketConsistent (block .digits 5) ∧ (block .digits 5).seenBegin = false := by unfold PacketConsistent; decide

/-- No reset, so the pins may carry anything. -/
theorem test_witness_pins_without_reset : (sample 40 true false).rst = false := by decide

theorem test_witness_FaultMarkIsSticky :
    (∃ t, step (feed [resetInput cfg] { caught .lrc 3 with fault := .cardOverflow }) = .next t)
      ∧ overflows (step (feed [sample 40 true false]
          { caught .digits 4 with seenBegin := true, cardLen := 2, shreg := 0b11100#5 })) = true
      ∧ State.fault { caught .lrc 3 with fault := .cardOverflow } = .cardOverflow := ⟨⟨_, rfl⟩, by decide⟩

theorem test_witness_ParityNeverChangesTheCourse :
    BitSel.state { state := .digits, n := 5, leadIn := 1, leadOut := 1, seenBegin := true, w := 0b01011#5, stop := 9 }
      = .digits := by decide

/-- Two blocks after a reset that differ in every register R48 calls unspecified. -/
theorem test_witness_UnwrittenRegistersAreUnobservable :
    Agree { block .leadIn 0 with clkPrevV := false, cardStartV := false }
      { block .leadIn 0 with clkPrevV := false, cardStartV := false, clkPrev := false, capIdx := 1, capBit := false
                             digitStart := 2, cardStart := 3, cardEnd := 4, cardBuf := [5#4, 6#4], lrcExp := 7#5 } := by
  constructor <;> decide

/-- A step that goes on with a flagged parity error, and one that overflows. -/
theorem test_witness_ErrorFoldChangesNoRegister :
    (feed [sample 40 true false] (caught .digits 4)).port.rst = false
      ∧ goesTo (fun t => t.out.perr.isSome) (step (feed [sample 40 true false] { caught .digits 4 with shreg := 0b11010#5 }))
        = true
      ∧ overflows (step (feed [sample 40 true false]
          { caught .digits 4 with seenBegin := true, cardLen := 2, shreg := 0b11100#5 })) = true := by decide

/-- A bit delivered over [31, 33), another captured at 39, and its update edge at 40; a step with no sample. -/
theorem test_witness_BitSpansNeverOverlap :
    let s : State := { caught .digits 3 with stream := [{ start := 31, stop := 33, category := .bit, text := .bit true }] }
    (BitSpansOrdered 39 (feed [sample 40 true false] s) ∧ (∃ t, step (feed [sample 40 true false] s) = .next t)
        ∧ (feed [sample 40 true false] s).port.rst = false ∧ (feed [sample 40 true false] s).port.smpValid = true
        ∧ 39 < (feed [sample 40 true false] s).port.smp.idx)
      ∧ BitSpansOrdered 39 (feed [Input.idle] s) ∧ (feed [Input.idle] s).port.smpValid = false := by
  refine ⟨⟨?_, ⟨_, rfl⟩, ?_, ?_, ?_⟩, ?_, ?_⟩
  · unfold BitSpansOrdered; decide
  · decide
  · decide
  · decide
  · unfold BitSpansOrdered; decide
  · decide

/-- Two bits are the lead-in (or lead-out) of this configuration. -/
theorem test_witness_LeadInTakesExactlyItsLength :
    let bs : List BitSpan := [{ val := true, start := 1, stop := 2 }, { val := false, start := 3, stop := 4 }]
    (block .leadIn 0).state = .leadIn ∧ (block .leadIn 0).bitcnt = 0 ∧ (block .leadIn 0).digitStartV = false
      ∧ 1 ≤ (block .leadIn 0).cfg.leadIn ∧ bs.length = (block .leadIn 0).cfg.leadIn
      ∧ (bs.take 1).length < (block .leadIn 0).cfg.leadIn
      ∧ bs.head? = some { val := true, start := 1, stop := 2 } ∧ bs.getLast? = some { val := false, start := 3, stop := 4 } := by
  decide

theorem test_witness_LeadOutTakesExactlyItsLength :
    let bs : List BitSpan := [{ val := true, start := 1, stop := 2 }, { val := false, start := 3, stop := 4 }]
    (block .leadOut 0).state = .leadOut ∧ (block .leadOut 0).bitcnt = 0 ∧ (block .leadOut 0).digitStartV = false
      ∧ 1 ≤ (block .leadOut 0).cfg.leadOut ∧ bs.length = (block .leadOut 0).cfg.leadOut
      ∧ (bs.take 1).length < (block .leadOut 0).cfg.leadOut
      ∧ bs.head? = some { val := true, start := 1, stop := 2 } ∧ bs.getLast? = some { val := false, start := 3, stop := 4 } := by
  decide

/-- The five bits of the word 11010 (a) with the string one digit short of full, and of 01101 (d) with the string full. -/
theorem test_witness_FiveBitsCompleteOneDigit :
    let s : State := { block .digits 0 with seenBegin := true, cardLen := 1 }
    s.state = .digits ∧ s.bitcnt = 0 ∧ s.digitStartV = false
      ∧ [false, true, false, true, true] = wordBits 0b11010#5 ∧ [true, false, true, true, false] = wordBits 0b01101#5
      ∧ ¬(s.seenBegin = true ∧ nonControl (wordValue 0b11010#5) = true ∧ s.cardLen = s.params.cardCap)
      ∧ ¬(true = true ∧ nonControl (wordValue 0b01101#5) = true ∧ State.cardLen { s with cardLen := 2 } = s.params.cardCap) := by
  decide

/-- Two bits whose last sample has the highest index there is, 255. -/
theorem test_witness_WaveformDeliversItsBits :
    let s := feed ((waveFrom .falling .inverted 252 [true, false]).map Sample.present) (block .digits 0)
    s.clkPrevV = true ∧ s.phase = .waitCapture ∧ s.clkPrev = idleLevel s.cfg.edge
      ∧ s.inputs = (waveFrom s.cfg.edge s.cfg.pol 252 [true, false]).map Sample.present ++ []
      ∧ 252 + 2 * [true, false].length ≤ 2 ^ s.params.tsW
      ∧ goesTo (fun t => t.bitcnt == 2) (deliver (waveBits 252 [true, false]) s) = true := by decide

end Sys2Proof.Tests
end

section
/-! PROOFS. The scope statements (00_scope.md): what a step runs, a step with no input, and the state after a launch. -/

namespace Sys2Proof.Machine

/-! ### A step and its operation -/

/-- Settles O11: a step's fetch is the decoded step selector, and consuming the input is the removal of the queue's head. -/
theorem stepRunsDecodedOperation : Obligations.StepRunsDecodedOperation := by
  intro s
  have hfetch : s.fetch = decode (.step s.stepSel) := rfl
  have hpop : s.popInput = { s with inputs := s.inputs.tail } := rfl
  rw [step, hfetch, hpop]

/-! ### A step with no input -/

/-- With an empty queue the ports carry the idle input (00_scope.md R7). -/
theorem State.port_of_inputs_nil {s : State} (h : s.inputs = []) : s.port = Input.idle.onPort s.params := by
  simp [State.port, h]

theorem State.popInput_of_inputs_nil {s : State} (h : s.inputs = []) : s.popInput = s := by
  cases s; cases h; rfl

/-- Neither a reset nor a sample on the ports selects SMP_NONE (40_bit_sampler.md R127). -/
theorem State.fetch_eq_smpNone {s : State} (hrst : s.port.rst = false) (hvalid : s.port.smpValid = false) :
    s.fetch = .smpNone := by
  simp [State.fetch, State.stepSel, decode, decodeStep, hrst, hvalid]

theorem exec_smpNone (s : State) : exec .smpNone s = .next s.beginStep := rfl

/-- Settles O16: the idle input selects SMP_NONE, and the empty queue loses nothing. -/
theorem noInputHoldsState : Obligations.NoInputHoldsState := by
  intro s hnil
  have hport := State.port_of_inputs_nil hnil
  have hfetch : s.fetch = .smpNone := State.fetch_eq_smpNone (by rw [hport]; rfl) (by rw [hport]; rfl)
  calc step s
    _ = exec .smpNone s := by rw [step, hfetch, State.popInput_of_inputs_nil hnil]
    _ = .next { s with out := noOutput } := exec_smpNone s

/-! ### The state after a launch -/

theorem drawIndex_lt (p : Params) (n : Nat) : drawIndex p n < 2 ^ p.tsW :=
  Nat.mod_lt _ (Nat.two_pow_pos _)

@[simp] theorem length_drawCardBuf (p : Params) (n : Nat) : (drawCardBuf p n).length = p.cardCap := by
  simp [drawCardBuf]

/-- The registers the invariant reads hold their reset values, or any value of their widths where 10_state.md R48 states
none. -/
structure ResetRegisters (s : State) : Prop where
  phase : s.phase = .waitCapture
  state : s.state = .leadIn
  bitcnt : s.bitcnt = 0
  digitStartV : s.digitStartV = false
  cardLen : s.cardLen = 0
  cardBufLength : s.cardBuf.length = s.params.cardCap
  lrcAcc : s.lrcAcc = 0#4
  seenBegin : s.seenBegin = false
  indicesFit : IndicesFit s

/-- With legal parameters and a legal configuration, the reset values meet every part of the invariant; the count is below
its limit because the lead-in length is positive (10_state.md R47). -/
theorem ResetRegisters.inv {s : State} (h : ResetRegisters s) (hp : ParamsLegal s) (hc : CfgLegal s) : Inv s where
  paramsLegal := hp
  cfgLegal := hc
  countBelowLimit := by
    have hlead : 0 < s.cfg.leadIn := by
      have hlegal := hc.1
      simp only [Cfg.legal, Bool.and_eq_true, decide_eq_true_eq] at hlegal
      exact hlegal.1
    simp [CountBelowLimit, countLimit, h.state, h.bitcnt, hlead]
  digitSpanOpen := by simp [DigitSpanOpen, h.digitStartV, h.bitcnt]
  cardFits := ⟨h.cardBufLength, by simp [h.cardLen]⟩
  indicesFit := h.indicesFit
  samplerConsistent := by simp [SamplerConsistent, h.phase]
  packetConsistent := by simp [PacketConsistent, h.state, h.lrcAcc, h.seenBegin, h.cardLen]

theorem State.launch_resetRegisters (p : Params) (c : Cfg) : ResetRegisters (State.launch p c) where
  phase := rfl
  state := rfl
  bitcnt := rfl
  digitStartV := rfl
  cardLen := rfl
  cardBufLength := length_drawCardBuf p 7
  lrcAcc := rfl
  seenBegin := rfl
  indicesFit := ⟨drawIndex_lt p 1, drawIndex_lt p 3, drawIndex_lt p 4, drawIndex_lt p 5⟩

theorem State.launch_inv {p : Params} {c : Cfg} (hp : p.legal = true) (hc : c.legal = true) (hfit : c.fits p = true) :
    Inv (State.launch p c) :=
  (State.launch_resetRegisters p c).inv hp ⟨hc, hfit⟩

/-- Settles O20: a launch holds reset values, which meet the invariant; `State.reset` is the launch with the default
configuration and the parameters of log entry 3, which are legal and fit. -/
theorem launchMeetsInvariant : Obligations.LaunchMeetsInvariant :=
  ⟨fun _ _ hp hc hfit => State.launch_inv hp hc hfit, State.launch_inv (by decide) (by decide) (by decide)⟩

end Sys2Proof.Machine
end

section
/-! PROOFS. The state statements (10_state.md): the shift register and the launch, what the ports carry, what a step can do,
the invariant and what stops a step, and the two relations between blocks: registers left unspecified, and ERROR_FOLD. -/

namespace Sys2Proof.Machine

/-! ### The shift register and the launch -/

/-- The bit that enters stands in bit 4, the word's parity position (10_state.md R30). -/
theorem getLsbD_shiftIn_four (x : Bool) (w : DigitWord) : (shiftIn x w).getLsbD 4 = x := by
  rw [shiftIn, BitVec.getLsbD_cons, if_pos rfl]

/-- Every other bit moves down by one place. -/
theorem getLsbD_shiftIn_of_lt (x : Bool) (w : DigitWord) {i : Nat} (hi : i < 4) :
    (shiftIn x w).getLsbD i = w.getLsbD (i + 1) := by
  simp [shiftIn, BitVec.getLsbD_cons, Nat.ne_of_lt hi, hi, Nat.add_comm]

/-- Settles O10: the k-th bit enters at bit 4 and each later one moves it down by one. -/
theorem shiftRegisterAssemblesDigit : Obligations.ShiftRegisterAssemblesDigit := by
  intro w b0 b1 b2 b3 p
  simp only [getLsbD_shiftIn_four, getLsbD_shiftIn_of_lt, Nat.reduceLT, Nat.reduceAdd, and_self]

/-- Settles O19: a launch holds the stated values by its definition, and the parameters of log entry 3 are legal. -/
theorem launchRegisters : Obligations.LaunchRegisters :=
  ⟨fun _ _ => ⟨rfl, rfl, rfl, rfl, rfl, rfl, rfl, rfl, rfl, rfl, rfl, rfl⟩, Config.launchParams, by decide, rfl⟩

/-! ### What the ports carry -/

theorem State.port_idx_lt (s : State) : s.port.smp.idx < 2 ^ s.params.tsW := Nat.mod_lt _ (Nat.two_pow_pos _)

theorem State.fitsIndex_port (s : State) : s.params.fitsIndex s.port.smp.idx = true := decide_eq_true s.port_idx_lt

theorem State.port_cfg_fits (s : State) : s.port.cfg.fits s.params = true := by
  have hin : s.port.cfg.leadIn < 2 ^ s.params.cntW := Nat.mod_lt _ (Nat.two_pow_pos _)
  have hout : s.port.cfg.leadOut < 2 ^ s.params.cntW := Nat.mod_lt _ (Nat.two_pow_pos _)
  simp [Cfg.fits, Params.fitsCount, hin, hout]

/-- The seven operations by what a step does with them: reset the block, deliver a bit, or neither. -/
theorem State.fetch_kinds (s : State) :
    (s.port.rst = true ∧ s.fetch = .reset s.port.cfg)
      ∨ (s.port.rst = false ∧ s.phase = .waitUpdate ∧ s.fetch = .smpUpdate s.port.smp)
      ∨ (s.port.rst = false
          ∧ (s.fetch = .smpNone ∨ s.fetch = .smpSeed s.port.smp ∨ s.fetch = .smpCapture s.port.smp
            ∨ s.fetch = .smpIgnore s.port.smp ∨ s.fetch = .smpHold s.port.smp)) := by
  rcases s.fetch_cases with hf | ⟨hrst, -, hf⟩ | ⟨hrst, -, -, hf⟩ | ⟨hrst, -, -, -, -, hf⟩ | ⟨hrst, -, -, -, -, hf⟩
      | ⟨hrst, -, -, hphase, -, hf⟩ | ⟨hrst, -, -, -, -, hf⟩
  · exact .inl hf
  · exact .inr (.inr ⟨hrst, .inl hf⟩)
  · exact .inr (.inr ⟨hrst, .inr (.inl hf)⟩)
  · exact .inr (.inr ⟨hrst, .inr (.inr (.inl hf))⟩)
  · exact .inr (.inr ⟨hrst, .inr (.inr (.inr (.inl hf)))⟩)
  · exact .inr (.inl ⟨hrst, hphase, hf⟩)
  · exact .inr (.inr ⟨hrst, .inr (.inr (.inr (.inr hf)))⟩)

/-- Settles O12: a fetched operation's operand is what the ports carry, which the port's width narrows. -/
theorem fetchedOperationIsWellFormed : Obligations.FetchedOperationIsWellFormed := by
  intro s
  rcases s.fetch_kinds with ⟨-, hf⟩ | ⟨-, -, hf⟩ | ⟨-, hf | hf | hf | hf | hf⟩ <;> rw [hf]
  · exact s.port_cfg_fits
  · exact s.fitsIndex_port
  · rfl
  all_goals exact s.fitsIndex_port

/-! ### Edges -/

theorem detect_eq_some {a b : Bool} {e : Edge} : detect a b = some e ↔ a = !e.levelAfter ∧ b = e.levelAfter := by
  cases a <;> cases b <;> cases e <;> decide

@[simp] theorem levelAfter_opposite (e : Edge) : e.opposite.levelAfter = !e.levelAfter := by cases e <;> rfl

/-! ### What a step can do -/

/-- The state in which a bit step's Frame Decoder operation runs: the input consumed, the sampler's own writes done, and the
captured bit taken through steps 1 to 3 of the per-bit update (40_bit_sampler.md R124, 41_frame_fsm.md R140). -/
def State.delivered (s : State) : State :=
  (s.popInput.closeBit s.port.smp).takeBit s.capBit s.capIdx s.port.smp.idx

/-- The Frame Decoder operation a bit step performs in state `u` for a bit that ends at `stop`. -/
def State.runBit (stop : Nat) (u : State) : Host.Outcome State Fault Refusal :=
  runFrameOp stop (decodeFrame (u.bitSel stop)) u

theorem step_of_smpUpdate {s : State} (h : s.fetch = .smpUpdate s.port.smp) :
    step s = s.delivered.runBit s.port.smp.idx := by
  rw [step, h, exec_smpUpdate]; rfl

theorem exec_reset_of_legal {c : Cfg} (s : State) (h : c.legal = true) :
    exec (.reset c) s = .next (s.beginStep.hardwareReset c) := by
  simp [exec, execReset, h]

theorem exec_reset_of_not_legal {c : Cfg} (s : State) (h : c.legal = false) :
    exec (.reset c) s = .refused .illegalConfig := by
  simp [exec, execReset, h]

/-- The ways a step can go on: one constructor per STEP row of 30_encoding.md R95, with what selects it and the state it
leaves. -/
inductive StepsTo (s : State) : State → Prop
  | reset (hrst : s.port.rst = true) (hlegal : s.port.cfg.legal = true) :
      StepsTo s (s.popInput.beginStep.hardwareReset s.port.cfg)
  | none (hrst : s.port.rst = false) : StepsTo s s.popInput.beginStep
  | seed (hrst : s.port.rst = false) (hv : s.clkPrevV = false) :
      StepsTo s { s.popInput.beginStep with clkPrev := s.port.smp.clk, clkPrevV := true }
  | capture (hrst : s.port.rst = false) (hv : s.clkPrevV = true)
      (hedge : detect s.clkPrev s.port.smp.clk = some s.cfg.edge) :
      StepsTo s { s.popInput.beginStep with
        capIdx := s.port.smp.idx, capBit := polmap s.cfg.pol s.port.smp.dat, phase := .waitUpdate
        clkPrev := s.port.smp.clk }
  | ignore (hrst : s.port.rst = false) (hphase : s.phase = .waitCapture) :
      StepsTo s { s.popInput.beginStep with clkPrev := s.port.smp.clk }
  | hold (hrst : s.port.rst = false) (hphase : s.phase = .waitUpdate)
      (hedge : detect s.clkPrev s.port.smp.clk ≠ some s.cfg.edge.opposite) :
      StepsTo s { s.popInput.beginStep with clkPrev := s.port.smp.clk }
  | update {t : State} (hrst : s.port.rst = false) (hfetch : s.fetch = .smpUpdate s.port.smp)
      (hrun : s.delivered.runBit s.port.smp.idx = .next t) : StepsTo s t

theorem stepsTo_of_step {s t : State} (h : step s = .next t) : StepsTo s t := by
  rcases s.fetch_cases with ⟨hrst, hf⟩ | ⟨hrst, -, hf⟩ | ⟨hrst, -, hv, hf⟩ | ⟨hrst, -, hv, -, hedge, hf⟩
      | ⟨hrst, -, -, hphase, -, hf⟩ | ⟨hrst, -, -, -, -, hf⟩ | ⟨hrst, -, -, hphase, hedge, hf⟩
  · rw [step, hf] at h
    cases hlegal : s.port.cfg.legal
    · rw [exec_reset_of_not_legal _ hlegal] at h; cases h
    · rw [exec_reset_of_legal _ hlegal] at h; cases h; exact .reset hrst hlegal
  · rw [step, hf] at h; cases h; exact .none hrst
  · rw [step, hf] at h; cases h; exact .seed hrst hv
  · rw [step, hf] at h; cases h; exact .capture hrst hv hedge
  · rw [step, hf] at h; cases h; exact .ignore hrst hphase
  · exact .update hrst hf (step_of_smpUpdate hf ▸ h)
  · rw [step, hf] at h; cases h; exact .hold hrst hphase hedge

/-- The state in which DIG_END computes the expected LRC: the digit resolved and put out, the card string flushed
(41_frame_fsm.md R150). -/
def State.endFlushed (p : Bool) (stop : Nat) (u : State) : State :=
  ((u.resolve (digitWord p codeEnd) stop).emitDig .endDigit codeEnd stop).flush .endDigit

/-- The ways the Frame Decoder's operation of a bit step can go on: either the count is not at its limit and nothing more is
written, or it is and the state's own operation ends a lead field or a digit (41_frame_fsm.md R140, R144 to R158). -/
inductive BitStepsTo (stop : Nat) (u : State) : State → Prop
  | count (hlim : u.bitcnt ≠ countLimit u) : BitStepsTo stop u u
  | leadinEnd (hst : u.state = .leadIn) (hlim : u.bitcnt = countLimit u) :
      BitStepsTo stop u
        { (u.emit (.mark { kind := .leadIn, start := u.digitStart, stop := stop })).clearBuffer with state := .digits }
  | digBegin (p : Bool) (hst : u.state = .digits) (hlim : u.bitcnt = countLimit u) (hval : wordValue u.shreg = 11#4) :
      BitStepsTo stop u
        (State.clearBuffer { (u.resolve (digitWord p codeBegin) stop).emitDig .beginDigit codeBegin stop with
                             seenBegin := true, cardStartV := false })
  | digSeparator (p : Bool) (hst : u.state = .digits) (hlim : u.bitcnt = countLimit u) :
      BitStepsTo stop u
        (((u.resolve (digitWord p codeSeparator) stop).emitDig .separator codeSeparator stop).flush .separator).clearBuffer
  | digEnd (p : Bool) (hst : u.state = .digits) (hlim : u.bitcnt = countLimit u) :
      BitStepsTo stop u
        (State.clearBuffer
          { u.endFlushed p stop with lrcExp := lrcExpected (u.endFlushed p stop).lrcAcc, state := .lrc })
  | digData (v : Nibble) (p : Bool) (hst : u.state = .digits) (hlim : u.bitcnt = countLimit u)
      (hseen : u.seenBegin = true) (hroom : u.cardLen ≠ u.params.cardCap) :
      BitStepsTo stop u
        ((((u.resolve (digitWord p v) stop).emitDig .data v stop).cardAppend v stop).clearBuffer)
  | digUnknown (v : Nibble) (p : Bool) (hst : u.state = .digits) (hlim : u.bitcnt = countLimit u) :
      BitStepsTo stop u ((u.resolve (digitWord p v) stop).emitDig .unknown v stop).clearBuffer
  | lrcDigit (w : DigitWord) (hst : u.state = .lrc) (hlim : u.bitcnt = countLimit u) :
      BitStepsTo stop u
        { (((u.checkLrc w stop).resolve w stop).emitDig .lrc (wordValue w) stop).clearBuffer with state := .leadOut }
  | leadoutEnd (hst : u.state = .leadOut) (hlim : u.bitcnt = countLimit u) :
      BitStepsTo stop u (u.emit (.mark { kind := .leadOut, start := u.digitStart, stop := stop })).fullReset

theorem execDigData_of_not_full {u : State} (v : Nibble) (p : Bool) (stop : Nat) (h : u.cardFull = false) :
    execDigData v p stop u
      = .next ((((u.resolve (digitWord p v) stop).emitDig .data v stop).cardAppend v stop).clearBuffer) := by
  simp [execDigData, h]

theorem execDigData_of_full {u : State} (v : Nibble) (p : Bool) (stop : Nat) (h : u.cardFull = true) :
    execDigData v p stop u = u.raiseCardOverflow := by
  simp [execDigData, h]

theorem State.cardFull_eq_false {u : State} : u.cardFull = false ↔ u.cardLen ≠ u.params.cardCap := by
  simp [State.cardFull]

theorem countLimit_of_leadIn {u : State} (h : u.state = .leadIn) : countLimit u = u.cfg.leadIn := by simp [countLimit, h]
theorem countLimit_of_digits {u : State} (h : u.state = .digits) : countLimit u = 5 := by simp [countLimit, h]
theorem countLimit_of_lrc {u : State} (h : u.state = .lrc) : countLimit u = 5 := by simp [countLimit, h]
theorem countLimit_of_leadOut {u : State} (h : u.state = .leadOut) : countLimit u = u.cfg.leadOut := by
  simp [countLimit, h]

theorem bitStepsTo_of_runBit {stop : Nat} {u t : State} (h : u.runBit stop = .next t) : BitStepsTo stop u t := by
  rw [State.runBit] at h
  rcases decodeFrame_cases (u.bitSel stop) with ⟨hst, hn, hop⟩ | ⟨hst, hn, hop⟩ | ⟨hst, hn, hop⟩ | ⟨hst, hn, hv, hop⟩
      | ⟨hst, hn, -, hop⟩ | ⟨hst, hn, -, hop⟩ | ⟨hst, hn, -, hseen, hop⟩ | ⟨hst, hn, -, -, hop⟩ | ⟨hst, hn, hop⟩
      | ⟨hst, hn, hop⟩ | ⟨hst, hn, hop⟩ | ⟨hst, hn, hop⟩ <;> rw [hop] at h
  · cases h; exact .leadinEnd hst (hn.trans (countLimit_of_leadIn hst).symm)
  · cases h; exact .count fun hlim => hn (hlim.trans (countLimit_of_leadIn hst))
  · cases h; exact .count fun hlim => hn (hlim.trans (countLimit_of_digits hst))
  · cases h; exact .digBegin _ hst (hn.trans (countLimit_of_digits hst).symm) hv
  · cases h; exact .digSeparator _ hst (hn.trans (countLimit_of_digits hst).symm)
  · cases h; exact .digEnd _ hst (hn.trans (countLimit_of_digits hst).symm)
  · cases hfull : u.cardFull
    · rw [runFrameOp, execDigData_of_not_full _ _ _ hfull] at h
      cases h
      exact .digData _ _ hst (hn.trans (countLimit_of_digits hst).symm) hseen (State.cardFull_eq_false.1 hfull)
    · rw [runFrameOp, execDigData_of_full _ _ _ hfull] at h; cases h
  · cases h; exact .digUnknown _ _ hst (hn.trans (countLimit_of_digits hst).symm)
  · cases h; exact .lrcDigit _ hst (hn.trans (countLimit_of_lrc hst).symm)
  · cases h; exact .count fun hlim => hn (hlim.trans (countLimit_of_lrc hst))
  · cases h; exact .leadoutEnd hst (hn.trans (countLimit_of_leadOut hst).symm)
  · cases h; exact .count fun hlim => hn (hlim.trans (countLimit_of_leadOut hst))

/-! ### The invariant -/

theorem countLimit_pos {s : State} (h : CfgLegal s) : 0 < countLimit s := by
  obtain ⟨hlegal, -⟩ := h
  simp only [Cfg.legal, Bool.and_eq_true, decide_eq_true_eq] at hlegal
  obtain ⟨hin, hout⟩ := hlegal
  cases hst : s.state <;> simp only [countLimit, hst] <;> omega

/-- A step keeps what the sampler knows of the clock while it waits for the update edge: a capture edge leaves the level
after it, and a sample that is no update edge does not change the level (40_bit_sampler.md R123, R126 (d)). -/
theorem step_keeps_samplerConsistent {s t : State} (h : SamplerConsistent s) (hstep : step s = .next t) :
    SamplerConsistent t := by
  cases stepsTo_of_step hstep with
  | reset => intro hw; cases hw
  | none => exact h
  | seed hrst hv =>
    intro hw
    rw [(h hw).1] at hv
    cases hv
  | capture hrst hv hedge => exact fun _ => ⟨hv, (detect_eq_some.1 hedge).2⟩
  | ignore hrst hphase => exact fun hw => by cases hphase.symm.trans hw
  | hold hrst hphase hedge =>
    obtain ⟨hv, hlevel⟩ := h hphase
    refine fun _ => ⟨hv, ?_⟩
    rw [Ne, detect_eq_some, levelAfter_opposite, Bool.not_not, not_and] at hedge
    exact Bool.not_eq_not.1 (hedge hlevel)
  | update hrst hfetch hrun =>
    obtain ⟨-, -, -, -, hphase, -⟩ := runFrameOp_session hrun
    exact fun hw => by cases hphase.symm.trans hw

/-- A write to the input queue, the sampler and the output channels alone keeps the invariant, where the sampler keeps its
part of it. -/
theorem Inv.withSampler {s : State} (h : Inv s) {is : List Input} {ck ckv cb : Bool} {ph : Phase} {ci : Nat} {o : Bundle}
    (hci : ci < 2 ^ s.params.tsW)
    (hs : SamplerConsistent
      { s with inputs := is, clkPrev := ck, clkPrevV := ckv, phase := ph, capIdx := ci, capBit := cb, out := o }) :
    Inv { s with inputs := is, clkPrev := ck, clkPrevV := ckv, phase := ph, capIdx := ci, capBit := cb, out := o } where
  paramsLegal := h.paramsLegal
  cfgLegal := h.cfgLegal
  countBelowLimit := h.countBelowLimit
  digitSpanOpen := h.digitSpanOpen
  cardFits := h.cardFits
  indicesFit := ⟨hci, h.indicesFit.2⟩
  samplerConsistent := hs
  packetConsistent := h.packetConsistent

/-- What holds in the middle of a bit step, between steps 1 to 3 of the per-bit update and the operation they select: the
invariant, but that the count may have reached its limit. -/
structure BitTaken (u : State) : Prop where
  paramsLegal : ParamsLegal u
  cfgLegal : CfgLegal u
  countAtMostLimit : u.bitcnt ≤ countLimit u
  countPos : 0 < u.bitcnt
  digitSpan : u.digitStartV = true
  cardFits : CardFits u
  indicesFit : IndicesFit u
  packetConsistent : PacketConsistent u

theorem openStart_lt {b : Bool} {own start n : Nat} (hown : own < n) (hstart : start < n) : openStart b own start < n := by
  cases b
  · exact hstart
  · exact hown

theorem Inv.delivered {s : State} (h : Inv s) : BitTaken s.delivered := by
  obtain ⟨hcap, hdigit, hcard, hend⟩ := h.indicesFit
  exact
    { paramsLegal := h.paramsLegal
      cfgLegal := h.cfgLegal
      countAtMostLimit := h.countBelowLimit
      countPos := Nat.succ_pos _
      digitSpan := rfl
      cardFits := h.cardFits
      indicesFit := ⟨hcap, openStart_lt hdigit hcap, openStart_lt hcard hcap, hend⟩
      packetConsistent := h.packetConsistent }

/-- The Frame Decoder's operation leaves the buffer as it is below the limit, and empty with the digit span closed at it
(41_frame_fsm.md R153). -/
theorem BitStepsTo.buffer {stop : Nat} {u t : State} (h : BitStepsTo stop u t) :
    (u.bitcnt ≠ countLimit u ∧ t = u) ∨ (t.bitcnt = 0 ∧ t.digitStartV = false) := by
  cases h with
  | count hlim => exact .inl ⟨hlim, rfl⟩
  | _ => exact .inr ⟨rfl, rfl⟩

theorem BitTaken.cardFits_next {stop : Nat} {u t : State} (h : BitTaken u) (hbit : BitStepsTo stop u t) : CardFits t := by
  obtain ⟨hbuf, hlen⟩ := h.cardFits
  cases hbit with
  | count => exact h.cardFits
  | digData v p hst hlim hseen hroom =>
    exact ⟨by simpa using hbuf, by simpa using lt_of_le_of_ne hlen hroom⟩
  | digSeparator | digEnd => simp [CardFits, State.endFlushed, hbuf]
  | leadinEnd | digBegin | digUnknown | lrcDigit | leadoutEnd => simp [CardFits, hbuf, hlen]

/-- The one index register the Frame Decoder's operations write is `card_end`, with the bit's end. -/
theorem BitTaken.indicesFit_next {stop : Nat} {u t : State} (h : BitTaken u) (hstop : stop < 2 ^ u.params.tsW)
    (hbit : BitStepsTo stop u t) : IndicesFit t := by
  obtain ⟨hcap, hdigit, hcard, hend⟩ := h.indicesFit
  cases hbit <;> simp [IndicesFit, State.endFlushed, hcap, hdigit, hcard, hend, hstop]

theorem BitTaken.packetConsistent_next {stop : Nat} {u t : State} (h : BitTaken u) (hbit : BitStepsTo stop u t) :
    PacketConsistent t := by
  obtain ⟨hlead, htail, hunseen, hlrc⟩ := h.packetConsistent
  cases hbit with
  | count => exact h.packetConsistent
  | leadinEnd hst => simp [PacketConsistent, hlead hst]
  | digBegin p hst => simp [PacketConsistent, hst]
  | digSeparator p hst => simp [PacketConsistent, hst]
  | digEnd => simp [PacketConsistent, State.endFlushed]
  | digData v p hst hlim hseen => simp [PacketConsistent, hst, hseen]
  | digUnknown v p hst => simpa [PacketConsistent, hst] using hunseen
  | lrcDigit w hst => simp [PacketConsistent, htail (.inl hst)]
  | leadoutEnd => simp [PacketConsistent]

theorem BitTaken.inv_next {stop : Nat} {u t : State} (h : BitTaken u) (hstop : stop < 2 ^ u.params.tsW)
    (hs : SamplerConsistent t) (hrun : u.runBit stop = .next t) : Inv t := by
  have hbit := bitStepsTo_of_runBit hrun
  obtain ⟨hparams, -, -, -, -, -, -, hcfg, -⟩ := runFrameOp_session hrun
  have hlegal : CfgLegal t := by simpa [CfgLegal, hparams, hcfg] using h.cfgLegal
  exact
    { paramsLegal := by simpa [ParamsLegal, hparams] using h.paramsLegal
      cfgLegal := hlegal
      countBelowLimit := by
        rcases hbit.buffer with ⟨hlim, rfl⟩ | ⟨hempty, -⟩
        · exact lt_of_le_of_ne h.countAtMostLimit hlim
        · rw [CountBelowLimit, hempty]; exact countLimit_pos hlegal
      digitSpanOpen := by
        rcases hbit.buffer with ⟨-, rfl⟩ | ⟨hempty, hclosed⟩
        · simp [DigitSpanOpen, h.digitSpan, h.countPos]
        · simp [DigitSpanOpen, hempty, hclosed]
      cardFits := h.cardFits_next hbit
      indicesFit := h.indicesFit_next hstop hbit
      samplerConsistent := hs
      packetConsistent := h.packetConsistent_next hbit }

theorem State.hardwareReset_resetRegisters (c : Cfg) (s : State) : ResetRegisters (s.hardwareReset c) where
  phase := rfl
  state := rfl
  bitcnt := rfl
  digitStartV := rfl
  cardLen := rfl
  cardBufLength := length_drawCardBuf _ _
  lrcAcc := rfl
  seenBegin := rfl
  indicesFit := ⟨drawIndex_lt _ _, drawIndex_lt _ _, drawIndex_lt _ _, drawIndex_lt _ _⟩

/-- Settles O44: a reset leaves reset values, the sampler's own operations touch only its part of the invariant, and a bit
step goes through `BitTaken`. -/
theorem stepKeepsInvariant : Obligations.StepKeepsInvariant := by
  intro s t h hstep
  have hs := step_keeps_samplerConsistent h.samplerConsistent hstep
  obtain ⟨hcap, -⟩ := h.indicesFit
  cases stepsTo_of_step hstep with
  | reset hrst hlegal =>
    exact (State.hardwareReset_resetRegisters _ _).inv h.paramsLegal ⟨hlegal, s.port_cfg_fits⟩
  | none | seed | ignore | hold => exact h.withSampler hcap hs
  | capture => exact h.withSampler s.port_idx_lt hs
  | update hrst hfetch hrun => exact h.delivered.inv_next s.port_idx_lt hs hrun

/-! ### What stops a step -/

/-- The Frame Decoder's operation stops in a Data digit on a full card string only (44_card_record.md R212). -/
theorem runBit_cases (stop : Nat) (u : State) :
    (∃ t, u.runBit stop = .next t)
      ∨ (u.state = .digits ∧ u.bitcnt = 5 ∧ u.seenBegin = true ∧ u.cardLen = u.params.cardCap
          ∧ nonControl (wordValue u.shreg) = true ∧ u.runBit stop = u.raiseCardOverflow) := by
  rcases runFrameOp_cases stop (decodeFrame (u.bitSel stop)) u with hgo | ⟨⟨v, p, hop⟩, hfull, hrun⟩
  · exact .inl hgo
  · obtain ⟨hst, hn, hseen, hval, -⟩ := decodeFrame_digData hop
    exact .inr ⟨hst, hn, hseen, eq_of_beq hfull, hval, hrun⟩

theorem Cfg.legal_eq_false {c : Cfg} : c.legal = false ↔ c.leadIn = 0 ∨ c.leadOut = 0 := by
  simp only [Cfg.legal, Bool.and_eq_false_iff, decide_eq_false_iff_not]
  omega

/-- Settles O45: of the step's operations RESET alone is refused, and a bit step alone faults. -/
theorem stepStopsOnlyAsStated : Obligations.StepStopsOnlyAsStated := by
  intro s
  rcases s.fetch_kinds with ⟨hrst, hf⟩ | ⟨-, -, hf⟩ | ⟨-, hf | hf | hf | hf | hf⟩
  · rw [step, hf]
    cases hlegal : s.port.cfg.legal
    · exact .inr (.inl ⟨exec_reset_of_not_legal _ hlegal, hrst, Cfg.legal_eq_false.1 hlegal⟩)
    · exact .inl ⟨_, exec_reset_of_legal _ hlegal⟩
  · rw [step_of_smpUpdate hf]
    rcases runBit_cases s.port.smp.idx s.delivered with hgo | ⟨hst, hn, hseen, hfull, hval, hrun⟩
    · exact .inl hgo
    · exact .inr (.inr ⟨_, hrun, rfl, ⟨_, hf⟩, hst, Nat.succ.inj hn, hseen, hfull, hval⟩)
  all_goals exact .inl ⟨_, by rw [step, hf]; rfl⟩

/-! ### The fault mark, the configuration and `seen_begin` -/

theorem step_keeps_fault {s t : State} (h : step s = .next t) : t.fault = s.fault := by
  cases stepsTo_of_step h with
  | update hrst hfetch hrun =>
    obtain ⟨-, -, -, -, -, -, -, -, hfault, -⟩ := runFrameOp_session hrun
    exact hfault
  | _ => rfl

/-- Settles O48: the mark is no operation's to write, and a faulting step is O45's third case. -/
theorem faultMarkIsSticky : Obligations.FaultMarkIsSticky := by
  refine ⟨fun _ _ => step_keeps_fault, fun s f hf => ?_, fun s hs => by simp [State.goodEnd, hs]⟩
  rcases stepStopsOnlyAsStated s with ⟨t, hgo⟩ | ⟨href, -⟩ | ⟨t, hfault, hmark, hup, hst, hn, hseen, hfull, hval⟩
  · rw [hf] at hgo; cases hgo
  · rw [hf] at href; cases href
  · rw [hf] at hfault; cases hfault
    exact ⟨hup, hst, hn, hseen, hval, hfull, t, rfl, hmark⟩

/-- What a step fetches depends on the pins in a reset only (10_state.md R40). -/
theorem fetch_pins_without_reset (s : State) {i : Input} (rest : List Input) (c : Cfg) (h : i.rst = false) :
    State.fetch { s with inputs := { i with cfg := c } :: rest } = State.fetch { s with inputs := i :: rest } := by
  simp [State.fetch, State.stepSel, State.port, Input.onPort, decode, decodeStep, h]

/-- Settles O47: RESET alone writes the latch; without a reset the pins are not part of what is fetched, and consuming the
input drops them. -/
theorem onlyResetWritesConfiguration : Obligations.OnlyResetWritesConfiguration := by
  refine ⟨fun s t h => ?_, fun s i rest c hi => ?_⟩
  · cases stepsTo_of_step h with
    | reset hrst => exact ⟨rfl, by rw [if_pos hrst]; rfl⟩
    | none hrst | seed hrst | capture hrst | ignore hrst | hold hrst => simp [hrst]
    | update hrst hfetch hrun =>
      obtain ⟨hparams, -, -, -, -, -, -, hcfg, -⟩ := runFrameOp_session hrun
      simp [hrst, hparams, hcfg, State.delivered]
  · rw [step, step, fetch_pins_without_reset s rest c hi]
    rfl

/-- In a bit step `seen_begin` is set by a Begin digit, cleared by the lead-out's last bit, and else kept. -/
theorem BitStepsTo.seenBegin_cases {stop : Nat} {u t : State} (h : BitStepsTo stop u t) :
    t.seenBegin = u.seenBegin
      ∨ (t.seenBegin = true ∧ u.state = .digits ∧ u.bitcnt = 5 ∧ wordValue u.shreg = 11#4)
      ∨ (t.seenBegin = false ∧ u.state = .leadOut ∧ u.bitcnt = u.cfg.leadOut) := by
  cases h with
  | digBegin p hst hlim hval => exact .inr (.inl ⟨rfl, hst, hlim.trans (countLimit_of_digits hst), hval⟩)
  | leadoutEnd hst hlim => exact .inr (.inr ⟨rfl, hst, hlim.trans (countLimit_of_leadOut hst)⟩)
  | _ => exact .inl (by simp [State.endFlushed])

theorem step_seenBegin_cases {s t : State} (hnorst : s.port.rst = false) (h : step s = .next t) :
    t.seenBegin = s.seenBegin
      ∨ (t.seenBegin = true ∧ (∃ smp, s.fetch = .smpUpdate smp) ∧ s.state = .digits ∧ s.bitcnt = 4
          ∧ wordValue (shiftIn s.capBit s.shreg) = 11#4)
      ∨ (t.seenBegin = false ∧ (∃ smp, s.fetch = .smpUpdate smp) ∧ s.state = .leadOut
          ∧ s.bitcnt + 1 = s.cfg.leadOut) := by
  cases stepsTo_of_step h with
  | reset hrst => rw [hnorst] at hrst; cases hrst
  | update hrst hfetch hrun =>
    rcases (bitStepsTo_of_runBit hrun).seenBegin_cases with hkeep | ⟨hset, hst, hn, hval⟩ | ⟨hclear, hst, hn⟩
    · exact .inl hkeep
    · exact .inr (.inl ⟨hset, ⟨_, hfetch⟩, hst, Nat.succ.inj hn, hval⟩)
    · exact .inr (.inr ⟨hclear, ⟨_, hfetch⟩, hst, hn⟩)
  | _ => exact .inl rfl

/-- Settles O49: `seen_begin` changes in the two ways of `step_seenBegin_cases` only. -/
theorem seenBeginIsSetByBegin : Obligations.SeenBeginIsSetByBegin := by
  intro s t hnorst h
  rcases step_seenBegin_cases hnorst h with hkeep | ⟨hset, hwhere⟩ | ⟨hclear, hwhere⟩
  · exact ⟨fun hs ht => by simp [hkeep, hs] at ht, fun hs ht => by simp [hkeep, hs] at ht⟩
  · exact ⟨fun _ _ => hwhere, fun _ ht => by simp [hset] at ht⟩
  · exact ⟨fun _ ht => by simp [hclear] at ht, fun _ _ => hwhere⟩

/-! ### The card buffer -/

/-- Writing at index `n` extends the first `n` elements by the value, where the list has an element there. -/
theorem take_succ_set {α : Type} (l : List α) (n : Nat) (v : α) :
    (l.set n v).take (n + 1) = l.take n ++ if n < l.length then [v] else [] := by
  rw [List.take_add_one, List.take_set_of_le le_rfl, List.getElem?_set, if_pos rfl]
  split <;> rfl

theorem exec_digData (v : Nibble) (p : Bool) (stop : Nat) (s : State) :
    exec (.digData v p stop) s = execDigData v p stop s := rfl

/-- Settles O35: the buffer has an element at `card_len`, as the string fits and is not full. -/
theorem digDataStoresOneElement : Obligations.DigDataStoresOneElement := by
  rintro v p stop s t ⟨hbuf, hlen⟩ h
  rw [exec_digData] at h
  cases hfull : s.cardFull
  · rw [execDigData_of_not_full _ _ _ hfull] at h
    cases h
    have hroom : s.cardLen < s.cardBuf.length :=
      hbuf ▸ lt_of_le_of_ne hlen (State.cardFull_eq_false.1 hfull)
    refine ⟨by simp [hroom], fun j hj => by simp [hj.symm], ?_⟩
    simp [take_succ_set, hroom]
  · rw [execDigData_of_full _ _ _ hfull] at h
    cases h

/-! ### The error-folding policy -/

/-- Neither the emission's channel nor one after it in the order of 45_annotation_output.md R233 is asserted. -/
def freeFrom (b : Bundle) : Emission → Prop
  | .bit _ => b = noOutput
  | .mark _ => b.mark = none ∧ b.lrcerr = none ∧ b.par = none ∧ b.perr = none ∧ b.dig = none ∧ b.card = none
  | .lrcerr _ => b.lrcerr = none ∧ b.par = none ∧ b.perr = none ∧ b.dig = none ∧ b.card = none
  | .par _ => b.par = none ∧ b.perr = none ∧ b.dig = none ∧ b.card = none
  | .perr _ => b.perr = none ∧ b.dig = none ∧ b.card = none
  | .dig _ => b.dig = none ∧ b.card = none
  | .card _ => b.card = none

/-- Channels asserted in their order are listed in the order of their assertion. -/
theorem emissions_put {b : Bundle} {e : Emission} (h : freeFrom b e) : (b.put e).emissions = b.emissions ++ [e] := by
  cases e <;> simp_all [freeFrom, Bundle.put, Bundle.emissions, noOutput]

/-- The CARD record that a flush puts out (44_card_record.md R213). -/
def State.cardEmission (c : Cause) (s : State) : Emission :=
  .card { cause := c, start := s.cardStart, stop := s.flushEnd, n := s.cardLen, digits := s.cardBuf.take s.cardLen }

/-- No channel of a digit is asserted. -/
def noDigitOut (b : Bundle) : Prop := b.par = none ∧ b.perr = none ∧ b.dig = none ∧ b.card = none

/-- The state under ERROR_FOLD = `f`, its stream being `recs` and then this step's channels serialised under `f`. -/
def refold (f : Fold) (recs : List Record) (s : State) : State :=
  withFold f (recs ++ s.out.emissions.map (serialise f)) s

section
variable (f : Fold) (recs : List Record)

variable {s : State}

theorem refold_of_noOutput (h : s.out = noOutput) : refold f recs s = withFold f recs s := by
  simp [refold, h, Bundle.emissions, noOutput]

theorem refold_emit {e : Emission} (h : freeFrom s.out e) : (refold f recs s).emit e = refold f recs (s.emit e) := by
  simp [refold, withFold, State.emit, emissions_put h]

theorem refold_takeBit (x : Bool) (a b : Nat) (h : s.out = noOutput) :
    (refold f recs s).takeBit x a b = refold f recs (s.takeBit x a b) := by
  have hemit := refold_emit f recs (s := { s with shreg := shiftIn x s.shreg, bitcnt := s.bitcnt + 1 })
    (e := .bit { val := x, start := a, stop := b }) h
  exact congrArg (fun t => (t.openDigit a).openCard a) hemit

theorem refold_flagParity (w : DigitWord) (b : Nat) (h : s.out.perr = none ∧ s.out.dig = none ∧ s.out.card = none) :
    (refold f recs s).flagParity w b = refold f recs (s.flagParity w b) := by
  have hemit := refold_emit f recs (s := s) (e := .perr { start := s.digitStart, stop := b }) h
  unfold State.flagParity
  by_cases hflag : s.cfg.psev = .flagged ∧ oddParity w = false
  · rw [if_pos hflag, ← hemit]; exact if_pos hflag
  · rw [if_neg hflag]; exact if_neg hflag

theorem refold_resolve (w : DigitWord) (b : Nat) (h : noDigitOut s.out) :
    (refold f recs s).resolve w b = refold f recs (s.resolve w b) := by
  have hemit := refold_emit f recs (s := { s with lrcAcc := accumulate s.lrcAcc (wordValue w) })
    (e := .par { odd := oddParity w, start := s.digitStart, stop := b }) h
  obtain ⟨-, hperr⟩ := h
  exact (congrArg (State.flagParity w b) hemit).trans (refold_flagParity f recs w b hperr)

theorem card_resolve_eq_none (w : DigitWord) (b : Nat) (h : noDigitOut s.out) : (s.resolve w b).out.card = none := by
  obtain ⟨-, -, -, hcard⟩ := h
  simpa [State.resolve_eq, parityOut] using hcard

theorem dig_resolve_eq_none (w : DigitWord) (b : Nat) (h : noDigitOut s.out) : (s.resolve w b).out.dig = none := by
  obtain ⟨-, -, hdig, -⟩ := h
  simpa [State.resolve_eq, parityOut] using hdig

/-- A digit resolved and put out, as every operation on a digit's fifth bit does (42_digit_resolution.md R170). -/
theorem refold_digit (w : DigitWord) (r : Role) (v : Nibble) (b : Nat) (h : noDigitOut s.out) :
    ((refold f recs s).resolve w b).emitDig r v b = refold f recs ((s.resolve w b).emitDig r v b) := by
  rw [refold_resolve f recs w b h]
  exact refold_emit f recs ⟨dig_resolve_eq_none w b h, card_resolve_eq_none w b h⟩

theorem refold_flush (c : Cause) (h : s.out.card = none) :
    (refold f recs s).flush c = refold f recs (s.flush c) := by
  have hemit := refold_emit f recs (s := s) (e := s.cardEmission c) h
  exact congrArg (fun t => { t with cardStartV := false, cardLen := 0, draws := s.draws + 1 }) hemit

/-- A digit put out and the card string flushed. -/
theorem refold_flush_digit (c : Cause) (w : DigitWord) (r : Role) (v : Nibble) (b : Nat) (h : noDigitOut s.out) :
    (((refold f recs s).resolve w b).emitDig r v b).flush c
      = refold f recs (((s.resolve w b).emitDig r v b).flush c) := by
  rw [refold_digit f recs w r v b h]
  exact refold_flush f recs c (card_resolve_eq_none w b h)

theorem refold_checkLrc (w : DigitWord) (b : Nat) (hl : s.out.lrcerr = none) (h : noDigitOut s.out) :
    (refold f recs s).checkLrc w b = refold f recs (s.checkLrc w b) := by
  have hemit := refold_emit f recs (s := s) (e := .lrcerr { start := s.digitStart, stop := b }) ⟨hl, h⟩
  unfold State.checkLrc
  by_cases hok : lrcOk w s.lrcExp = true
  · rw [if_pos hok]; exact if_pos hok
  · rw [if_neg hok, ← hemit]; exact if_neg hok

theorem noDigitOut_checkLrc (w : DigitWord) (b : Nat) (h : noDigitOut s.out) : noDigitOut (s.checkLrc w b).out := by
  rw [State.checkLrc_eq]
  dsimp only
  split <;> exact h

/-- The Frame Decoder's operations commute with the change of policy, where BIT is the one channel asserted before. -/
theorem refold_runFrameOp (stop : Nat) (op : FrameOp) {o : BitOut} (h : s.out = { noOutput with bit := some o }) :
    runFrameOp stop op (refold f recs s) = mapOutcome (refold f recs) (runFrameOp stop op s) := by
  have hmark (e : MarkOut) : freeFrom s.out (.mark e) := by rw [h]; exact ⟨rfl, rfl, rfl, rfl, rfl, rfl⟩
  have hdig : noDigitOut s.out := by rw [h]; exact ⟨rfl, rfl, rfl, rfl⟩
  cases op with
  | leadinBit | digitsBit | lrcBit | leadoutBit => rfl
  | leadinEnd =>
    exact congrArg (fun t : State => Host.Outcome.next { t.clearBuffer with state := .digits })
      (refold_emit f recs (hmark _))
  | digBegin p =>
    exact congrArg (fun t : State => Host.Outcome.next (State.clearBuffer { t with seenBegin := true, cardStartV := false }))
      (refold_digit f recs _ _ _ _ hdig)
  | digSeparator p =>
    exact congrArg (fun t : State => Host.Outcome.next t.clearBuffer) (refold_flush_digit f recs _ _ _ _ _ hdig)
  | digEnd p =>
    exact congrArg
      (fun t : State => Host.Outcome.next (State.clearBuffer { t with lrcExp := lrcExpected t.lrcAcc, state := .lrc }))
      (refold_flush_digit f recs _ _ _ _ _ hdig)
  | digData v p =>
    cases hfull : s.cardFull
    · have hfull' : (refold f recs s).cardFull = false := hfull
      rw [runFrameOp, runFrameOp, execDigData_of_not_full _ _ _ hfull, execDigData_of_not_full _ _ _ hfull']
      exact congrArg (fun t : State => Host.Outcome.next (t.cardAppend v stop).clearBuffer)
        (refold_digit f recs _ _ _ _ hdig)
    · have hfull' : (refold f recs s).cardFull = true := hfull
      rw [runFrameOp, runFrameOp, execDigData_of_full _ _ _ hfull, execDigData_of_full _ _ _ hfull']
      rfl
  | digUnknown v p => exact congrArg (fun t : State => Host.Outcome.next t.clearBuffer) (refold_digit f recs _ _ _ _ hdig)
  | lrcDigit w =>
    have hcheck := refold_checkLrc f recs w stop (by rw [h]; rfl) hdig
    have hdigit := refold_digit f recs w .lrc (wordValue w) stop (noDigitOut_checkLrc w stop hdig)
    rw [← hcheck] at hdigit
    exact congrArg (fun t : State => Host.Outcome.next { t.clearBuffer with state := .leadOut }) hdigit
  | leadoutEnd => exact congrArg (fun t : State => Host.Outcome.next t.fullReset) (refold_emit f recs (hmark _))

theorem delivered_withFold (s : State) : (withFold f recs s).delivered = refold f recs s.delivered := by
  have hclose : (withFold f recs s).popInput.closeBit s.port.smp = refold f recs (s.popInput.closeBit s.port.smp) :=
    (refold_of_noOutput f recs (s := s.popInput.closeBit s.port.smp) rfl).symm
  exact (congrArg (State.takeBit s.capBit s.capIdx s.port.smp.idx) hclose).trans (refold_takeBit f recs _ _ _ rfl)

/-- Without a reset, a step commutes with the change of policy: the same operation is fetched, as no selector condition reads
ERROR_FOLD. -/
theorem step_withFold (s : State) (hnorst : s.port.rst = false) :
    step (withFold f recs s) = mapOutcome (refold f recs) (step s) := by
  have hfetch : (withFold f recs s).fetch = s.fetch := rfl
  rcases s.fetch_kinds with ⟨hrst, -⟩ | ⟨-, -, hf⟩ | ⟨-, hf | hf | hf | hf | hf⟩
  · rw [hnorst] at hrst; cases hrst
  · rw [step_of_smpUpdate hf, step_of_smpUpdate (hfetch.trans hf), delivered_withFold]
    exact refold_runFrameOp f recs _ _ rfl
  all_goals
    rw [step, step, hfetch, hf]
    change _ = Host.Outcome.next (refold f recs _)
    rw [refold_of_noOutput f recs rfl]
    rfl

end

/-- Settles O54: `refold` names the state that the other block steps to. -/
theorem errorFoldChangesNoRegister : Obligations.ErrorFoldChangesNoRegister := by
  intro f recs s hnorst
  have hstep := step_withFold f recs s hnorst
  refine ⟨fun t h => by rw [hstep, h]; rfl, fun r h => ?_⟩
  obtain ⟨ended⟩ := r
  exact ⟨_, by rw [hstep, h]; rfl⟩

/-! ### Registers left unspecified by a reset -/

/-- The two blocks' card buffers agree on the string after a value is written at its end. -/
theorem take_succ_set_congr {α : Type} {l l' : List α} {n : Nat} (v : α) (hlen : l.length = l'.length)
    (h : l.take n = l'.take n) : (l.set n v).take (n + 1) = (l'.set n v).take (n + 1) := by
  rw [take_succ_set, take_succ_set, h, hlen]

section
variable {s t : State}

theorem Agree.port_eq (h : Agree s t) : s.port = t.port := by rw [State.port, State.port, h.inputs, h.params]

/-- The stored clock level is read only where it is valid, so both blocks fetch one operation. -/
theorem Agree.fetch_eq (h : Agree s t) : s.fetch = t.fetch := by
  cases hv : s.clkPrevV
  · have hv' : t.clkPrevV = false := h.clkPrevV ▸ hv
    simp [State.fetch, decode, decodeStep, State.stepSel, h.port_eq, hv, hv']
  · simp [State.fetch, State.stepSel, h.port_eq, h.clkPrevV, h.clkPrev hv, h.phase, h.cfg]

theorem Agree.bitSel_eq (h : Agree s t) (stop : Nat) : s.bitSel stop = t.bitSel stop := by
  simp [State.bitSel, h.state, h.bitcnt, h.cfg, h.seenBegin, h.shreg]

theorem Agree.popInput (h : Agree s t) : Agree s.popInput t.popInput :=
  { h with inputs := congrArg List.tail h.inputs }

theorem Agree.beginStep (h : Agree s t) : Agree s.beginStep t.beginStep :=
  { h with out := rfl }

theorem Agree.setClkPrev (h : Agree s t) (level : Bool) :
    Agree { s with clkPrev := level } { t with clkPrev := level } :=
  { h with clkPrev := fun _ => rfl }

theorem Agree.emit (h : Agree s t) {e e' : Emission} (he : e = e') : Agree (s.emit e) (t.emit e') :=
  { h with
    out := congrArg₂ Bundle.put h.out he
    stream := by simp [h.stream, h.cfg, he] }

theorem Agree.clearBuffer (h : Agree s t) : Agree s.clearBuffer t.clearBuffer :=
  { h with bitcnt := rfl, digitStartV := rfl, digitStart := nofun }

theorem Agree.setState (h : Agree s t) {st : FrameState} (hst : st ≠ .lrc) :
    Agree { s with state := st } { t with state := st } :=
  { h with state := rfl, lrcExp := fun hlrc => absurd hlrc hst }

theorem Agree.fullReset (h : Agree s t) : Agree s.fullReset t.fullReset :=
  { h with
    state := rfl, bitcnt := rfl, digitStartV := rfl, digitStart := nofun, cardStartV := rfl, cardStart := nofun
    cardLen := rfl, cardEnd := fun hlen => absurd rfl hlen, cardBuf := rfl, lrcAcc := rfl, lrcExp := nofun
    seenBegin := rfl }

theorem Agree.hardwareReset (h : Agree s t) (c : Cfg) : Agree (s.hardwareReset c) (t.hardwareReset c) :=
  { h with
    cfg := rfl, clkPrevV := rfl, clkPrev := nofun, phase := rfl, captured := nofun, state := rfl, bitcnt := rfl
    shreg := rfl, digitStartV := rfl, digitStart := nofun, cardStartV := rfl, cardStart := nofun, cardLen := rfl
    cardEnd := fun hlen => absurd rfl hlen, cardBuf := rfl, cardBufLength := by simp [h.params], lrcAcc := rfl
    lrcExp := nofun, seenBegin := rfl, draws := by simp [h.params, h.draws] }

theorem openStart_congr {b b' : Bool} {own own' : Nat} (a : Nat) (hb : b = b') (h : b = true → own = own') :
    openStart b own a = openStart b' own' a := by
  subst hb
  cases b
  · rfl
  · exact h rfl

theorem Agree.takeBit (h : Agree s t) (x : Bool) (a b : Nat) : Agree (s.takeBit x a b) (t.takeBit x a b) :=
  { h with
    shreg := congrArg (shiftIn x) h.shreg
    bitcnt := congrArg Nat.succ h.bitcnt
    digitStartV := rfl
    digitStart := fun _ => openStart_congr a h.digitStartV h.digitStart
    cardStartV := rfl
    cardStart := fun _ => openStart_congr a h.cardStartV h.cardStart
    out := congrArg (Bundle.put · (.bit { val := x, start := a, stop := b })) h.out
    stream := congrArg (· ++ _) h.stream }

theorem Agree.closeBit (h : Agree s t) (m : Sample) : Agree (s.closeBit m) (t.closeBit m) :=
  { h with phase := rfl, captured := nofun, clkPrev := fun _ => rfl, out := rfl }

/-! The digit operations read `digit_start`, which is open in a bit step. -/

theorem Agree.flagParity (h : Agree s t) (hopen : s.digitStartV = true) (w : DigitWord) (b : Nat) :
    Agree (s.flagParity w b) (t.flagParity w b) := by
  unfold State.flagParity
  rw [← h.cfg]
  split
  · exact h.emit (by rw [h.digitStart hopen])
  · exact h

theorem Agree.resolve (h : Agree s t) (hopen : s.digitStartV = true) (w : DigitWord) (b : Nat) :
    Agree (s.resolve w b) (t.resolve w b) := by
  have hacc : Agree { s with lrcAcc := accumulate s.lrcAcc (wordValue w) }
      { t with lrcAcc := accumulate t.lrcAcc (wordValue w) } :=
    { h with lrcAcc := congrArg (accumulate · (wordValue w)) h.lrcAcc }
  exact (hacc.emit (by rw [h.digitStart hopen])).flagParity hopen w b

theorem Agree.digit (h : Agree s t) (hopen : s.digitStartV = true) (w : DigitWord) (r : Role) (v : Nibble) (b : Nat) :
    Agree ((s.resolve w b).emitDig r v b) ((t.resolve w b).emitDig r v b) :=
  (h.resolve hopen w b).emit (by simp [h.digitStart hopen])

theorem Agree.checkLrc (h : Agree s t) (hopen : s.digitStartV = true) (hst : s.state = .lrc) (w : DigitWord) (b : Nat) :
    Agree (s.checkLrc w b) (t.checkLrc w b) := by
  unfold State.checkLrc
  rw [← h.lrcExp hst]
  split
  · exact h
  · exact h.emit (by rw [h.digitStart hopen])

theorem Agree.cardAppend (h : Agree s t) (v : Nibble) (b : Nat) : Agree (s.cardAppend v b) (t.cardAppend v b) :=
  { h with
    cardLen := congrArg Nat.succ h.cardLen
    cardEnd := fun _ => rfl
    cardBufLength := by simp [h.cardBufLength]
    cardBuf := by
      have hbuf := h.cardBuf
      rw [← h.cardLen] at hbuf
      simpa [← h.cardLen] using take_succ_set_congr v h.cardBufLength hbuf }

theorem Agree.flushEnd_eq (h : Agree s t) : s.flushEnd = t.flushEnd := by
  unfold State.flushEnd
  rw [← h.cardLen, ← h.params, ← h.draws]
  split
  · rfl
  · exact h.cardEnd ‹_›

theorem Agree.cardEmission_eq (h : Agree s t) (hopen : s.cardStartV = true) (c : Cause) :
    s.cardEmission c = t.cardEmission c := by
  rw [State.cardEmission, h.cardStart hopen, h.flushEnd_eq, h.cardBuf, h.cardLen, State.cardEmission]

theorem Agree.flush (h : Agree s t) (hopen : s.cardStartV = true) (c : Cause) : Agree (s.flush c) (t.flush c) := by
  have hemit : Agree (s.emit (s.cardEmission c)) (t.emit (t.cardEmission c)) := h.emit (h.cardEmission_eq hopen c)
  exact
    { hemit with
      cardStartV := rfl, cardStart := nofun, cardLen := rfl, cardEnd := fun hlen => absurd rfl hlen, cardBuf := rfl
      draws := congrArg Nat.succ h.draws }

theorem Agree.mark (h : Agree s t) (hopen : s.digitStartV = true) (k : MarkKind) (b : Nat) :
    Agree (s.emit (.mark { kind := k, start := s.digitStart, stop := b }))
      (t.emit (.mark { kind := k, start := t.digitStart, stop := b })) :=
  h.emit (by rw [h.digitStart hopen])

theorem decodeFrame_lrcDigit {b : BitSel} {w : DigitWord} (h : decodeFrame b = .lrcDigit w) : b.state = .lrc := by
  rcases decodeFrame_cases b with h' | h' | h' | h' | h' | h' | h' | h' | h' | h' | h' | h' <;> simp_all

/-- Both spans are open in a bit step, and `lrc_exp` is read in state Lrc only. -/
theorem Agree.runBit (h : Agree s t) (hdigit : s.digitStartV = true) (hcard : s.cardStartV = true) (stop : Nat) :
    AgreeOutcome (s.runBit stop) (t.runBit stop) := by
  rw [State.runBit, State.runBit, ← h.bitSel_eq stop]
  cases hop : decodeFrame (s.bitSel stop) with
  | leadinBit | digitsBit | lrcBit | leadoutBit => exact h
  | leadinEnd => exact (h.mark hdigit _ _).clearBuffer.setState nofun
  | digBegin p =>
    exact Agree.clearBuffer { h.digit hdigit _ _ _ _ with seenBegin := rfl, cardStartV := rfl, cardStart := nofun }
  | digSeparator p => exact ((h.digit hdigit _ _ _ _).flush (by simpa using hcard) _).clearBuffer
  | digEnd p =>
    have hflush := (h.digit hdigit (digitWord p codeEnd) .endDigit codeEnd stop).flush (by simpa using hcard) .endDigit
    exact Agree.clearBuffer { hflush with state := rfl, lrcExp := fun _ => congrArg lrcExpected hflush.lrcAcc }
  | digData v p =>
    have hfull' : t.cardFull = s.cardFull := by simp [State.cardFull, h.cardLen, h.params]
    cases hfull : s.cardFull
    · rw [runFrameOp, runFrameOp, execDigData_of_not_full _ _ _ hfull, execDigData_of_not_full _ _ _ (hfull'.trans hfull)]
      exact ((h.digit hdigit _ _ _ _).cardAppend _ _).clearBuffer
    · rw [runFrameOp, runFrameOp, execDigData_of_full _ _ _ hfull, execDigData_of_full _ _ _ (hfull'.trans hfull)]
      exact trivial
  | digUnknown v p => exact (h.digit hdigit _ _ _ _).clearBuffer
  | lrcDigit w =>
    have hcheck := h.checkLrc hdigit (decodeFrame_lrcDigit hop) w stop
    exact (hcheck.digit (by simpa using hdigit) _ _ _ _).clearBuffer.setState nofun
  | leadoutEnd => exact (h.mark hdigit _ _).fullReset

end

/-- Settles O52: both blocks fetch one operation, and each operation either writes an unread register in both blocks alike or
leaves it unread. -/
theorem unwrittenRegistersAreUnobservable : Obligations.UnwrittenRegistersAreUnobservable := by
  intro s t h
  have hbegin := h.popInput.beginStep
  rcases s.fetch_kinds with ⟨-, hf⟩ | ⟨-, hphase, hf⟩ | ⟨-, hf | hf | hf | hf | hf⟩
  · rw [step, step, ← h.fetch_eq, hf]
    cases hlegal : s.port.cfg.legal
    · rw [exec_reset_of_not_legal _ hlegal, exec_reset_of_not_legal _ hlegal]
      exact rfl
    · rw [exec_reset_of_legal _ hlegal, exec_reset_of_legal _ hlegal]
      exact hbegin.hardwareReset _
  · obtain ⟨hidx, hbit⟩ := h.captured hphase
    have hdelivered : Agree s.delivered t.delivered := by
      rw [State.delivered, State.delivered, ← hidx, ← hbit, ← h.port_eq]
      exact (h.popInput.closeBit _).takeBit _ _ _
    have hf' : t.fetch = .smpUpdate t.port.smp := by rw [← h.fetch_eq, hf, h.port_eq]
    rw [step_of_smpUpdate hf, step_of_smpUpdate hf', ← h.port_eq]
    exact hdelivered.runBit rfl rfl _
  all_goals rw [step, step, ← h.fetch_eq, hf]
  · exact hbegin
  · change Agree _ _
    exact { hbegin with clkPrevV := rfl, clkPrev := fun _ => rfl }
  · change Agree _ _
    exact
      { hbegin with
        phase := rfl, captured := fun _ => ⟨rfl, congrArg (fun c => polmap c.pol s.port.smp.dat) h.cfg⟩
        clkPrev := fun _ => rfl }
  · exact hbegin.setClkPrev _
  · exact hbegin.setClkPrev _

end Sys2Proof.Machine
end

section
/-! PROOFS. The encoding statements (30_encoding.md): codes and digit words, the selector, its decoder and its encoder, which
operation a step and a bit step select, polarity duality, and the canonical waveform. -/

namespace Sys2Proof.Machine

/-! ### Codes and digit words -/

/-- Settles O8: the sixteen values, one by one. -/
theorem hexCharacters : Obligations.HexCharacters := by
  unfold Obligations.HexCharacters
  decide

/-- Settles O4: the thirty-two words, one by one. -/
theorem digitValueIsWeightedSum : Obligations.DigitValueIsWeightedSum := by
  unfold Obligations.DigitValueIsWeightedSum
  decide

theorem oddParity_goodParityBit (v : Nibble) : oddParity (digitWord (goodParityBit v) v) = true := by
  revert v; decide

theorem oddParity_not_goodParityBit (v : Nibble) : oddParity (digitWord (!goodParityBit v) v) = false := by
  revert v; decide

/-- Settles O5: the parity bit decides the parity, and the value does not depend on it. -/
theorem oneWellFormedWordPerValue : Obligations.OneWellFormedWordPerValue := fun v =>
  ⟨oddParity_goodParityBit v, oddParity_not_goodParityBit v, wordValue_digitWord _ v, wordValue_digitWord _ v⟩

/-- Both codes of a one-bit value are used, where 0 and 1 are. -/
theorem exists_code_eq {α : Type} {code : α → BitVec 1} {a b : α} (ha : code a = 0#1) (hb : code b = 1#1) (c : BitVec 1) :
    ∃ x, code x = c := by
  rcases BitVec.eq_zero_or_eq_one c with rfl | rfl
  · exact ⟨a, ha⟩
  · exact ⟨b, hb⟩

theorem FrameState.code_ofCode (c : BitVec 2) : (FrameState.ofCode c).code = c := by
  revert c; decide

theorem Category.code_le (c : Category) : c.code.toNat ≤ 10 := by cases c <;> decide

/-- Settles O7: the codes are as written, and each one-bit value has both. -/
theorem registerCodes : Obligations.RegisterCodes :=
  ⟨⟨rfl, rfl, rfl, rfl⟩, FrameState.code_ofCode, ⟨rfl, rfl⟩, ⟨rfl, rfl⟩, ⟨rfl, rfl⟩, ⟨rfl, rfl⟩,
    fun c => ⟨exists_code_eq (a := Edge.falling) (b := .rising) rfl rfl c,
      exists_code_eq (a := Polarity.normal) (b := .inverted) rfl rfl c,
      exists_code_eq (a := Severity.informational) (b := .flagged) rfl rfl c,
      exists_code_eq (a := Fold.separate) (b := .folded) rfl rfl c⟩,
    ⟨rfl, rfl, rfl, rfl⟩, ⟨rfl, rfl⟩, rfl, rfl, Category.code_le, ⟨rfl, rfl⟩, ⟨rfl, rfl⟩⟩

/-! ### The selector -/

theorem decodeDigit_begin (seen : Bool) {w : DigitWord} (h : wordValue w = codeBegin) :
    decodeDigit seen w = .digBegin (wordParityBit w) := by
  simp [decodeDigit, h]

theorem decodeDigit_separator (seen : Bool) {w : DigitWord} (h : wordValue w = codeSeparator) :
    decodeDigit seen w = .digSeparator (wordParityBit w) := by
  simp [decodeDigit, h, codeBegin, codeSeparator]

theorem decodeDigit_end (seen : Bool) {w : DigitWord} (h : wordValue w = codeEnd) :
    decodeDigit seen w = .digEnd (wordParityBit w) := by
  simp [decodeDigit, h, codeBegin, codeSeparator, codeEnd]

/-- A word with none of the control codes is selected by `seen_begin` (30_encoding.md R90, R91). -/
theorem decodeDigit_nonControl (seen : Bool) {w : DigitWord} (h : nonControl (wordValue w) = true) :
    decodeDigit seen w
      = if seen then .digData (wordValue w) (wordParityBit w) else .digUnknown (wordValue w) (wordParityBit w) := by
  simp only [nonControl, Bool.and_eq_true, bne_iff_ne] at h
  obtain ⟨⟨hb, hd⟩, hf⟩ := h
  simp [decodeDigit, codeBegin, codeSeparator, codeEnd, hb, hd, hf]

theorem decode_digitSel (seen : Bool) (w : DigitWord) (stop : Nat) :
    decode (digitSel seen w stop) = (decodeDigit seen w).toInstr stop := rfl

/-- Settles O1: the digits by the fields of the word that the encoder builds, every other operation by the selector's
conditions. -/
theorem decodeEncodeRoundTrip : Obligations.DecodeEncodeRoundTrip := by
  intro p i hwf
  cases i with
  | digBegin q stop => simp [encode, decode_digitSel, decodeDigit_begin, FrameOp.toInstr]
  | digSeparator q stop => simp [encode, decode_digitSel, decodeDigit_separator, FrameOp.toInstr]
  | digEnd q stop => simp [encode, decode_digitSel, decodeDigit_end, FrameOp.toInstr]
  | digData v q stop =>
    have hv : nonControl v = true := (Bool.and_eq_true_iff.1 hwf).1
    simp [encode, decode_digitSel, decodeDigit_nonControl, hv, FrameOp.toInstr]
  | digUnknown v q stop =>
    have hv : nonControl v = true := (Bool.and_eq_true_iff.1 hwf).1
    simp [encode, decode_digitSel, decodeDigit_nonControl, hv, FrameOp.toInstr]
  | _ => rfl

theorem decodeStep_wf {p : Params} {d : StepSel} (hcfg : d.cfg.fits p = true) (hidx : p.fitsIndex d.smp.idx = true) :
    (decodeStep d).wf p = true := by
  unfold decodeStep
  split
  · exact hcfg
  split
  · rfl
  split
  · exact hidx
  split <;> split <;> exact hidx

theorem decodeFrame_wf {p : Params} {b : BitSel} (hstop : p.fitsIndex b.stop = true) :
    ((decodeFrame b).toInstr b.stop).wf p = true := by
  rcases decodeFrame_cases b with ⟨-, -, hop⟩ | ⟨-, -, hop⟩ | ⟨-, -, hop⟩ | ⟨-, -, -, hop⟩ | ⟨-, -, -, hop⟩
      | ⟨-, -, -, hop⟩ | ⟨-, -, hv, -, hop⟩ | ⟨-, -, hv, -, hop⟩ | ⟨-, -, hop⟩ | ⟨-, -, hop⟩ | ⟨-, -, hop⟩
      | ⟨-, -, hop⟩ <;> rw [hop]
  any_goals exact hstop
  all_goals exact Bool.and_eq_true_iff.2 ⟨hv, hstop⟩

/-- Settles O2: a step's operand is what the ports carry, and a Data or Unknown digit is selected after the control codes. -/
theorem decodedOperationIsWellFormed : Obligations.DecodedOperationIsWellFormed := by
  intro p sel h
  cases sel with
  | step d =>
    obtain ⟨hcfg, hidx⟩ := Bool.and_eq_true_iff.1 h
    exact decodeStep_wf hcfg hidx
  | bit b => exact decodeFrame_wf h

/-- Settles O3: each word is closed, and so is its selector. -/
theorem writtenDigitWordsDecode : Obligations.WrittenDigitWordsDecode := by
  unfold Obligations.WrittenDigitWordsDecode
  decide

/-! ### Which operation is selected -/

section
variable {s : State}

theorem State.port_of_inputs_cons {i : Input} {rest : List Input} (h : s.inputs = i :: rest) :
    s.port = i.onPort s.params := by
  simp [State.port, h]

theorem State.fetch_eq_reset (hrst : s.port.rst = true) : s.fetch = .reset s.port.cfg := by
  simp [State.fetch, State.stepSel, decode, decodeStep, hrst]

theorem State.fetch_eq_smpSeed (hrst : s.port.rst = false) (hvalid : s.port.smpValid = true) (hprev : s.clkPrevV = false) :
    s.fetch = .smpSeed s.port.smp := by
  simp [State.fetch, State.stepSel, decode, decodeStep, hrst, hvalid, hprev]

/-- In WaitCapture a transition in the direction of CAPTURE_EDGE captures (40_bit_sampler.md R120, R121). -/
theorem State.fetch_of_waitCapture (hrst : s.port.rst = false) (hvalid : s.port.smpValid = true) (hprev : s.clkPrevV = true)
    (hphase : s.phase = .waitCapture) :
    s.fetch = if s.clkPrev = !s.cfg.edge.levelAfter ∧ s.port.smp.clk = s.cfg.edge.levelAfter then .smpCapture s.port.smp
      else .smpIgnore s.port.smp := by
  simp [State.fetch, State.stepSel, decode, decodeStep, hrst, hvalid, hprev, hphase, detect_eq_some]

/-- In WaitUpdate a transition in the other direction updates (40_bit_sampler.md R120, R121). -/
theorem State.fetch_of_waitUpdate (hrst : s.port.rst = false) (hvalid : s.port.smpValid = true) (hprev : s.clkPrevV = true)
    (hphase : s.phase = .waitUpdate) :
    s.fetch = if s.clkPrev = s.cfg.edge.levelAfter ∧ s.port.smp.clk = !s.cfg.edge.levelAfter then .smpUpdate s.port.smp
      else .smpHold s.port.smp := by
  simp [State.fetch, State.stepSel, decode, decodeStep, hrst, hvalid, hprev, hphase, detect_eq_some]

end

/-- Settles O13: the head of the queue is what the ports carry. -/
theorem samplerSelection : Obligations.SamplerSelection := by
  intro s i rest hi
  have hport := State.port_of_inputs_cons hi
  have hrst : s.port.rst = i.rst := by rw [hport]; rfl
  have hvalid : s.port.smpValid = i.smpValid := by rw [hport]; rfl
  have hcfg : s.port.cfg = i.cfg.onPort s.params := by rw [hport]; rfl
  have hsmp : s.port.smp = i.smp.onPort s.params := by rw [hport]; rfl
  have hclk : s.port.smp.clk = i.smp.clk := by rw [hsmp]; rfl
  rw [← hrst, ← hvalid, ← hcfg, ← hsmp, ← hclk]
  exact ⟨State.fetch_eq_reset, State.fetch_eq_smpNone, State.fetch_eq_smpSeed, State.fetch_of_waitCapture,
    State.fetch_of_waitUpdate⟩

theorem nonControl_of_toNat {v : Nibble} (hb : v.toNat ≠ 11) (hd : v.toNat ≠ 13) (hf : v.toNat ≠ 15) :
    nonControl v = true := by
  have h (n : Nat) (hn : n < 16) (hne : v.toNat ≠ n) : v ≠ BitVec.ofNat 4 n := by
    rintro rfl; exact hne (by simpa using hn)
  simp [nonControl, h 11 (by decide) hb, h 13 (by decide) hd, h 15 (by decide) hf]

/-- Settles O14: the Decoder State gives the case of step 4, and in Digits the word gives the digit's. -/
theorem frameSelection : Obligations.FrameSelection := by
  intro b
  have hdigit (hst : b.state = .digits) (hn : b.n = 5) : decode (.bit b) = (decodeDigit b.seenBegin b.w).toInstr b.stop := by
    simp [decode, decodeFrame, hst, hn]
  refine ⟨fun hst => ?_, fun hst hn => ?_, fun hst hn hv => ?_, fun hst hn hv => ?_, fun hst hn hv => ?_,
    fun hst hn hb hd hf => ?_, fun hst => ?_, fun hst => ?_⟩
  · simp only [decode, decodeFrame, hst]; split <;> rfl
  · simp [decode, decodeFrame, hst, hn, FrameOp.toInstr]
  · rw [hdigit hst hn, decodeDigit_begin _ (BitVec.eq_of_toNat_eq hv)]; rfl
  · rw [hdigit hst hn, decodeDigit_separator _ (BitVec.eq_of_toNat_eq hv)]; rfl
  · rw [hdigit hst hn, decodeDigit_end _ (BitVec.eq_of_toNat_eq hv)]; rfl
  · rw [hdigit hst hn, decodeDigit_nonControl _ (nonControl_of_toNat hb hd hf)]; split <;> rfl
  · simp only [decode, decodeFrame, hst]; split <;> rfl
  · simp only [decode, decodeFrame, hst]; split <;> rfl

/-! ### What stands before the Frame Decoder

The Frame Decoder's operations neither read nor write the pending inputs, the captured bit and its index, and POLARITY, so
they commute with every change of these alone. -/

/-- The pending inputs, the captured bit with its index, and POLARITY. -/
structure Upstream where
  inputs : List Input
  capIdx : Nat
  capBit : Bool
  pol    : Polarity

/-- What stands before the Frame Decoder in this state. -/
def State.upstream (s : State) : Upstream :=
  { inputs := s.inputs, capIdx := s.capIdx, capBit := s.capBit, pol := s.cfg.pol }

/-- The state with `f` applied to what stands before the Frame Decoder. -/
def State.mapUpstream (f : Upstream → Upstream) (s : State) : State :=
  { s with
    inputs := (f s.upstream).inputs, capIdx := (f s.upstream).capIdx, capBit := (f s.upstream).capBit
    cfg := { s.cfg with pol := (f s.upstream).pol } }

section
variable (f : Upstream → Upstream) (s : State)

theorem resolve_mapUpstream (w : DigitWord) (b : Nat) :
    (s.mapUpstream f).resolve w b = (s.resolve w b).mapUpstream f := by
  rw [State.resolve_eq, State.resolve_eq]; rfl

theorem checkLrc_mapUpstream (w : DigitWord) (b : Nat) :
    (s.mapUpstream f).checkLrc w b = (s.checkLrc w b).mapUpstream f := by
  rw [State.checkLrc_eq, State.checkLrc_eq]; rfl

theorem emitDig_mapUpstream (r : Role) (v : Nibble) (b : Nat) :
    (s.mapUpstream f).emitDig r v b = (s.emitDig r v b).mapUpstream f := rfl

theorem flush_mapUpstream (c : Cause) : (s.mapUpstream f).flush c = (s.flush c).mapUpstream f := rfl

theorem cardAppend_mapUpstream (v : Nibble) (b : Nat) :
    (s.mapUpstream f).cardAppend v b = (s.cardAppend v b).mapUpstream f := rfl

theorem clearBuffer_mapUpstream : (s.mapUpstream f).clearBuffer = s.clearBuffer.mapUpstream f := rfl

/-- The digit operations are compositions of operations that commute with `f`. -/
theorem runFrameOp_mapUpstream (stop : Nat) (op : FrameOp) :
    runFrameOp stop op (s.mapUpstream f) = mapOutcome (State.mapUpstream f) (runFrameOp stop op s) := by
  cases op with
  | leadinBit | leadinEnd | digitsBit | lrcBit | leadoutBit | leadoutEnd => rfl
  | digBegin p => simp only [runFrameOp, execDigBegin, resolve_mapUpstream, emitDig_mapUpstream]; rfl
  | digSeparator p =>
    simp only [runFrameOp, execDigSeparator, resolve_mapUpstream, emitDig_mapUpstream, flush_mapUpstream]; rfl
  | digEnd p =>
    simp only [runFrameOp, execDigEnd, resolve_mapUpstream, emitDig_mapUpstream, flush_mapUpstream]
    generalize State.flush .endDigit _ = t
    rfl
  | digData v p =>
    have hfull' : (s.mapUpstream f).cardFull = s.cardFull := rfl
    cases hfull : s.cardFull
    · rw [runFrameOp, runFrameOp, execDigData_of_not_full _ _ _ hfull, execDigData_of_not_full _ _ _ (hfull'.trans hfull),
        resolve_mapUpstream, emitDig_mapUpstream, cardAppend_mapUpstream, clearBuffer_mapUpstream]
      rfl
    · rw [runFrameOp, runFrameOp, execDigData_of_full _ _ _ hfull, execDigData_of_full _ _ _ (hfull'.trans hfull)]
      rfl
  | digUnknown v p => simp only [runFrameOp, execDigUnknown, resolve_mapUpstream, emitDig_mapUpstream]; rfl
  | lrcDigit w =>
    simp only [runFrameOp, execLrcDigit, checkLrc_mapUpstream, resolve_mapUpstream, emitDig_mapUpstream,
      clearBuffer_mapUpstream]
    rfl

/-- A bit step selects by registers of the Frame Decoder alone. -/
theorem runBit_mapUpstream (stop : Nat) :
    (s.mapUpstream f).runBit stop = mapOutcome (State.mapUpstream f) (s.runBit stop) :=
  runFrameOp_mapUpstream f s stop (decodeFrame (s.bitSel stop))

theorem perBitUpdate_mapUpstream (x : Bool) (a b : Nat) :
    perBitUpdate x a b (s.mapUpstream f) = mapOutcome (State.mapUpstream f) (perBitUpdate x a b s) :=
  runBit_mapUpstream f (s.takeBit x a b) b

end

/-! ### Polarity and data inversion -/

/-- A sample with the other data level (30_encoding.md R99). -/
def dualSample (m : Sample) : Sample := { m with dat := !m.dat }

/-- The part of `dual` that is a change before the Frame Decoder, which is all of it (`dual_eq_mapUpstream`). -/
def Upstream.dual (u : Upstream) : Upstream := { u with inputs := u.inputs.map dualInput, pol := flipPol u.pol }

theorem dual_eq_mapUpstream : dual = State.mapUpstream Upstream.dual := rfl

/-- A step's operation as the dual block is given it: the other polarity on the pins, the other data level. -/
def dualInstr : Instr → Instr
  | .reset c => .reset (dualCfg c)
  | .smpSeed m => .smpSeed (dualSample m)
  | .smpCapture m => .smpCapture (dualSample m)
  | .smpIgnore m => .smpIgnore (dualSample m)
  | .smpUpdate m => .smpUpdate (dualSample m)
  | .smpHold m => .smpHold (dualSample m)
  | i => i

/-- The selector's conditions read neither the polarity nor the data level. -/
theorem decodeStep_dual (d : StepSel) :
    decodeStep { d with cfg := dualCfg d.cfg, smp := dualSample d.smp } = dualInstr (decodeStep d) := by
  unfold decodeStep
  dsimp only
  split
  · rfl
  split
  · rfl
  split
  · rfl
  cases d.phase <;> dsimp only <;> split <;> rfl

theorem port_dual_of_inputs_cons {s : State} {i : Input} {rest : List Input} (h : s.inputs = i :: rest) :
    (dual s).port = dualInput s.port := by
  have hdual : (dual s).inputs = dualInput i :: rest.map dualInput := congrArg (List.map dualInput) h
  rw [State.port_of_inputs_cons h, State.port_of_inputs_cons hdual]
  rfl

theorem fetch_dual (s : State) : (dual s).fetch = dualInstr s.fetch := by
  cases hi : s.inputs with
  | nil =>
    have hdual : (dual s).inputs = [] := congrArg (List.map dualInput) hi
    have hnone {t : State} (h : t.inputs = []) : t.fetch = .smpNone :=
      State.fetch_eq_smpNone (by rw [State.port_of_inputs_nil h]; rfl) (by rw [State.port_of_inputs_nil h]; rfl)
    rw [hnone hi, hnone hdual]
    rfl
  | cons i rest =>
    have hsel : (dual s).stepSel = { s.stepSel with cfg := dualCfg s.stepSel.cfg, smp := dualSample s.stepSel.smp } := by
      simp only [State.stepSel, port_dual_of_inputs_cons hi]
      rfl
    exact (congrArg decodeStep hsel).trans (decodeStep_dual s.stepSel)

theorem popInput_dual (s : State) : (dual s).popInput = dual s.popInput := by
  simp [State.popInput, dual, List.map_tail]

/-- Two inversions cancel (40_bit_sampler.md R125). -/
theorem polmap_flipPol (pol : Polarity) (d : Bool) : polmap (flipPol pol) (!d) = polmap pol d := by
  cases pol <;> simp [polmap, flipPol]

theorem exec_smpCapture_dual (m : Sample) (s : State) :
    exec (.smpCapture (dualSample m)) (dual s) = mapOutcome dual (exec (.smpCapture m) s) := by
  have hbit : polmap (dual s).cfg.pol (dualSample m).dat = polmap s.cfg.pol m.dat := polmap_flipPol s.cfg.pol m.dat
  simp only [exec, execSmpCapture, State.beginStep_cfg, hbit]
  rfl

theorem exec_reset_dual (c : Cfg) (s : State) :
    exec (.reset (dualCfg c)) (dual s) = mapOutcome dual (exec (.reset c) s) := by
  have hlegal' : (dualCfg c).legal = c.legal := rfl
  cases hlegal : c.legal
  · rw [exec_reset_of_not_legal _ hlegal, exec_reset_of_not_legal _ (hlegal'.trans hlegal)]; rfl
  · rw [exec_reset_of_legal _ hlegal, exec_reset_of_legal _ (hlegal'.trans hlegal)]; rfl

/-- Settles O53: the dual block fetches the dual operation; a capture undoes the two inversions, a reset latches the other
polarity, and the Frame Decoder reads neither. -/
theorem polarityDuality : Obligations.PolarityDuality := by
  intro s
  rw [step, step, fetch_dual, popInput_dual]
  rcases s.fetch_kinds with ⟨-, hf⟩ | ⟨-, -, hf⟩ | ⟨-, hf | hf | hf | hf | hf⟩ <;> rw [hf]
  · exact exec_reset_dual _ _
  · rw [dual_eq_mapUpstream]
    exact perBitUpdate_mapUpstream Upstream.dual (s.popInput.closeBit s.port.smp) s.capBit s.capIdx s.port.smp.idx
  · rfl
  · rfl
  · exact exec_smpCapture_dual _ _
  · rfl
  · rfl

/-! ### The canonical waveform -/

theorem waveFrom_normal (e : Edge) (i : Nat) (xs : List Bool) :
    waveFrom e .normal i xs = (waveFrom e .inverted i xs).map dualSample := by
  induction xs generalizing i with
  | nil => rfl
  | cons x xs ih => simp [waveFrom, ih, dualSample, lineLevel]

/-- Settles O60: the first sample has no data level of its own, and the rest is `waveFrom_normal`. -/
theorem waveformsAreDual : Obligations.WaveformsAreDual := by
  intro e xs
  rw [wave, waveFrom_normal]
  rfl

/-- The polarity map undoes the line coding (30_encoding.md R98, 40_bit_sampler.md R125). -/
theorem polmap_lineLevel (pol : Polarity) (x : Bool) : polmap pol (lineLevel pol x) = x := by
  cases pol <;> simp [polmap, lineLevel]

theorem idleLevel_eq (e : Edge) : idleLevel e = !e.levelAfter := levelAfter_opposite e

theorem deliver_mapUpstream (f : Upstream → Upstream) (bs : List BitSpan) (s : State) :
    deliver bs (s.mapUpstream f) = mapOutcome (State.mapUpstream f) (deliver bs s) := by
  induction bs generalizing s with
  | nil => rfl
  | cons b bs ih =>
    have hbit := perBitUpdate_mapUpstream f s.beginStep b.val b.start b.stop
    have hbegin : (s.mapUpstream f).beginStep = s.beginStep.mapUpstream f := rfl
    rw [deliver, deliver, hbegin, hbit]
    cases perBitUpdate b.val b.start b.stop s.beginStep with
    | next t => exact ih t
    | fault r => rfl
    | refused r => rfl

theorem deliver_cons_next {b : BitSpan} {bs : List BitSpan} {s t : State} (h : deliver (b :: bs) s = .next t) :
    ∃ u, perBitUpdate b.val b.start b.stop s.beginStep = .next u ∧ deliver bs u = .next t := by
  rw [deliver] at h
  cases hbit : perBitUpdate b.val b.start b.stop s.beginStep with
  | next u => rw [hbit] at h; exact ⟨u, rfl, h⟩
  | fault r => rw [hbit] at h; cases h
  | refused r => rw [hbit] at h; cases h

theorem run_succ_of_step {s t : State} (h : step s = .next t) (k : Nat) :
    Host.Core.run Sys2Proof.core (k + 1) s = Host.Core.run Sys2Proof.core k t := by
  have hcore : Sys2Proof.core.step s = .next t := h
  simp [Host.Core.run, hcore]

/-- A seeded sampler that waits for a capture edge with the clock idle (30_encoding.md R98). -/
structure IdleSampler (s : State) : Prop where
  clkPrevV : s.clkPrevV = true
  phase : s.phase = .waitCapture
  clkPrev : s.clkPrev = idleLevel s.cfg.edge

theorem IdleSampler.of_perBitUpdate {x : Bool} {a b : Nat} {s t : State} (h : IdleSampler s)
    (hbit : perBitUpdate x a b s.beginStep = .next t) : IdleSampler t := by
  obtain ⟨-, -, hclk, hv, hphase, -, -, hcfg, -⟩ := runFrameOp_session hbit
  exact ⟨hv.trans h.clkPrevV, hphase.trans h.phase, by rw [hclk, hcfg]; exact h.clkPrev⟩

/-- The inputs left over, and the captured bit and index, after a bit has been sampled. -/
def Upstream.afterBit (rest : List Input) (i : Nat) (x : Bool) (u : Upstream) : Upstream :=
  { u with inputs := rest, capIdx := i, capBit := x }

section
variable {s : State} {x : Bool} {i : Nat}

theorem Sample.onPort_of_lt {p : Params} {m : Sample} (h : m.idx < 2 ^ p.tsW) : m.onPort p = m := by
  simp [Sample.onPort, Nat.mod_eq_of_lt h]

theorem State.port_present {m : Sample} {rest : List Input} (hi : s.inputs = m.present :: rest)
    (hm : m.idx < 2 ^ s.params.tsW) : s.port.rst = false ∧ s.port.smpValid = true ∧ s.port.smp = m := by
  rw [State.port_of_inputs_cons hi]
  exact ⟨rfl, rfl, Sample.onPort_of_lt hm⟩

/-- The state after the capture edge of a logical bit (40_bit_sampler.md R123). -/
def State.captured (i : Nat) (x : Bool) (s : State) : State :=
  { s.popInput.beginStep with capIdx := i, capBit := x, phase := .waitUpdate, clkPrev := !idleLevel s.cfg.edge }

/-- The first of a bit's two samples is its capture edge. -/
theorem step_capture_sample {rest : List Input} (h : IdleSampler s) (hidx : i < 2 ^ s.params.tsW)
    (hi : s.inputs
      = Sample.present { idx := i, clk := !idleLevel s.cfg.edge, dat := lineLevel s.cfg.pol x } :: rest) :
    step s = .next (s.captured i x) := by
  obtain ⟨hrst, hvalid, hsmp⟩ := State.port_present hi hidx
  have hfetch := State.fetch_of_waitCapture hrst hvalid h.clkPrevV h.phase
  rw [hsmp, if_pos ⟨h.clkPrev.trans (idleLevel_eq _), by simp [idleLevel_eq]⟩] at hfetch
  rw [step, hfetch]
  simp only [exec, execSmpCapture, State.beginStep_cfg, State.popInput_cfg, polmap_lineLevel]
  rfl

/-- The second is its update edge, which delivers the bit captured. -/
theorem step_update_sample {rest : List Input} (h : IdleSampler s) (hidx : i + 1 < 2 ^ s.params.tsW) {y : Bool}
    (hi : s.inputs.tail = Sample.present { idx := i + 1, clk := idleLevel s.cfg.edge, dat := y } :: rest) :
    step (s.captured i x)
      = mapOutcome (State.mapUpstream (Upstream.afterBit rest i x)) (perBitUpdate x i (i + 1) s.beginStep) := by
  obtain ⟨hrst, hvalid, hsmp⟩ := State.port_present (s := s.captured i x) hi hidx
  have hfetch := State.fetch_of_waitUpdate hrst hvalid h.clkPrevV rfl
  have hclk : (s.captured i x).clkPrev = (s.captured i x).cfg.edge.levelAfter := by
    simp [State.captured, idleLevel_eq]
  rw [hsmp, if_pos ⟨hclk, idleLevel_eq _⟩, ← hsmp] at hfetch
  have hclose : (s.captured i x).popInput.closeBit (s.captured i x).port.smp
      = s.beginStep.mapUpstream (Upstream.afterBit rest i x) := by
    have hrest : s.inputs.tail.tail = rest := by rw [hi]; rfl
    rw [hsmp]
    simp [State.captured, State.popInput, State.closeBit, State.beginStep, State.mapUpstream, State.upstream,
      Upstream.afterBit, hrest, h.clkPrev, h.phase]
  calc step (s.captured i x)
    _ = perBitUpdate x i (s.captured i x).port.smp.idx
          ((s.captured i x).popInput.closeBit (s.captured i x).port.smp) := step_of_smpUpdate hfetch
    _ = perBitUpdate x i (i + 1) (s.beginStep.mapUpstream (Upstream.afterBit rest i x)) := by rw [hclose, hsmp]
    _ = _ := perBitUpdate_mapUpstream _ _ _ _ _

/-- The two samples of a bit leave what the Frame Decoder leaves when given the bit directly. -/
theorem run_bit_samples {xs : List Bool} {rest : List Input} {t : State} (h : IdleSampler s)
    (hidx : i + 1 < 2 ^ s.params.tsW)
    (hi : s.inputs = (waveFrom s.cfg.edge s.cfg.pol i (x :: xs)).map Sample.present ++ rest)
    (hbit : perBitUpdate x i (i + 1) s.beginStep = .next t) (k : Nat) :
    Host.Core.run Sys2Proof.core (k + 2) s
      = Host.Core.run Sys2Proof.core k (t.mapUpstream
          (Upstream.afterBit ((waveFrom s.cfg.edge s.cfg.pol (i + 2) xs).map Sample.present ++ rest) i x)) := by
  have hcapture := step_capture_sample h (Nat.lt_of_succ_lt hidx) hi
  have hupdate := step_update_sample (x := x) h hidx (congrArg List.tail hi)
  rw [hbit] at hupdate
  exact (run_succ_of_step hcapture (k + 1)).trans (run_succ_of_step hupdate k)

/-- The run of the samples against the delivery of the bits. The bits that follow the first are delivered alike in the state
that its two samples leave, which differs from the one that the bit alone leaves in what stands before the Frame Decoder. -/
theorem run_waveFrom {xs : List Bool} {rest : List Input} {t : State} (h : IdleSampler s)
    (hi : s.inputs = (waveFrom s.cfg.edge s.cfg.pol i xs).map Sample.present ++ rest)
    (hidx : i + 2 * xs.length ≤ 2 ^ s.params.tsW) (hdel : deliver (waveBits i xs) s = .next t) :
    ∃ (ix : Nat) (b : Bool),
      Host.Core.run Sys2Proof.core (2 * xs.length) s = .next { t with inputs := rest, capIdx := ix, capBit := b } := by
  induction xs generalizing s i t with
  | nil =>
    cases hdel
    cases hi
    exact ⟨s.capIdx, s.capBit, rfl⟩
  | cons x xs ih =>
    rw [List.length_cons] at hidx
    obtain ⟨u, hbit, hdel⟩ := deliver_cons_next hdel
    obtain ⟨(hparams : u.params = s.params), -, -, -, -, -, -, (hcfg : u.cfg = s.cfg), -⟩ := runFrameOp_session hbit
    have hu := h.of_perBitUpdate hbit
    have hrun := run_bit_samples h (by omega) hi hbit (2 * xs.length)
    rw [← hcfg] at hrun
    generalize hleft : (waveFrom u.cfg.edge u.cfg.pol (i + 2) xs).map Sample.present ++ rest = left at hrun
    have hdel' : deliver (waveBits (i + 2) xs) (u.mapUpstream (Upstream.afterBit left i x))
        = .next (t.mapUpstream (Upstream.afterBit left i x)) := by
      rw [deliver_mapUpstream, hdel]; rfl
    have hidx' : i + 2 + 2 * xs.length ≤ 2 ^ u.params.tsW := by rw [hparams]; omega
    obtain ⟨ix, b, hrest⟩ := ih (s := u.mapUpstream (Upstream.afterBit left i x))
      ⟨hu.clkPrevV, hu.phase, hu.clkPrev⟩ hleft.symm hidx' hdel'
    exact ⟨ix, b, hrun.trans hrest⟩

end

/-- Settles O59: the statement's three premises on the sampler are those of `run_waveFrom`. -/
theorem waveformDeliversItsBits : Obligations.WaveformDeliversItsBits :=
  fun _ _ _ _ hv hphase hclk hi hidx _ hdel => run_waveFrom ⟨hv, hphase, hclk⟩ hi hidx hdel

end Sys2Proof.Machine
end

section
/-! PROOFS. The Bit Sampler's statements (40_bit_sampler.md): the spans of the bits, how a bit step runs and goes on, and what
each of the other operations writes. -/

namespace Sys2Proof.Machine

/-! ### The BIT records of the stream -/

@[simp] theorem bitRecords_nil : bitRecords [] = [] := rfl

@[simp] theorem bitRecords_cons (r : Record) (rs : List Record) :
    bitRecords (r :: rs) = if r.category = .bit then r :: bitRecords rs else bitRecords rs := by
  simp [bitRecords, List.filter_cons]

@[simp] theorem bitRecords_append (rs rs' : List Record) : bitRecords (rs ++ rs') = bitRecords rs ++ bitRecords rs' :=
  List.filter_append rs rs'

@[simp] theorem errorCategory_ne_bit (f : Fold) : errorCategory f ≠ .bit := by cases f <;> decide

@[simp] theorem roleCategory_ne_bit (f : Fold) (r : Role) : roleCategory f r ≠ .bit := by
  cases f <;> cases r <;> decide

@[simp] theorem bitRecords_parityRecords (c : Cfg) (w : DigitWord) (a b : Nat) :
    bitRecords (parityRecords c w a b) = [] := by
  cases hflag : flagsParity c w <;> simp [parityRecords, hflag]

@[simp] theorem bitRecords_resolve (w : DigitWord) (b : Nat) (s : State) :
    bitRecords (s.resolve w b).stream = bitRecords s.stream := by
  simp [State.resolve_eq]

@[simp] theorem bitRecords_checkLrc (w : DigitWord) (b : Nat) (s : State) :
    bitRecords (s.checkLrc w b).stream = bitRecords s.stream := by
  by_cases hok : w = s.lrcExp <;> simp [State.checkLrc_eq, hok]

/-- Step 1 of the per-bit update alone puts out BIT (41_frame_fsm.md R141): the operation it selects adds no bit. -/
theorem BitStepsTo.bitRecords_eq {stop : Nat} {u t : State} (h : BitStepsTo stop u t) :
    bitRecords t.stream = bitRecords u.stream := by
  cases h with
  | count => rfl
  | leadinEnd | leadoutEnd => simp [serialise]
  | _ => simp [State.endFlushed]

/-! ### The spans of the bits -/

/-- The spans are read from the bits delivered and, while a bit is captured, from its index. -/
theorem BitSpansOrdered.of_same_bits {last last' : Nat} {s t : State} (h : BitSpansOrdered last s) (hle : last ≤ last')
    (hbits : bitRecords t.stream = bitRecords s.stream)
    (hcap : t.phase = .waitUpdate → s.phase = .waitUpdate ∧ t.capIdx = s.capIdx) : BitSpansOrdered last' t := by
  obtain ⟨hpair, hspan, hopen⟩ := h
  rw [BitSpansOrdered, hbits]
  refine ⟨hpair, fun r hr => ⟨(hspan r hr).1, (hspan r hr).2.trans hle⟩, fun hw => ?_⟩
  obtain ⟨hphase, hidx⟩ := hcap hw
  obtain ⟨hlast, hafter⟩ := hopen hphase
  rw [hidx]
  exact ⟨hlast.trans hle, hafter⟩

/-- The captured bit starts after the bits before it, and its update edge comes later than the capture edge. -/
theorem BitSpansOrdered.delivered {last : Nat} {s : State} (h : BitSpansOrdered last s) (hphase : s.phase = .waitUpdate)
    (hlt : last < s.port.smp.idx) : BitSpansOrdered s.port.smp.idx s.delivered := by
  obtain ⟨hpair, hspan, hopen⟩ := h
  obtain ⟨hcap, hafter⟩ := hopen hphase
  have hbits : bitRecords s.delivered.stream = bitRecords s.stream
      ++ [{ start := s.capIdx, stop := s.port.smp.idx, category := .bit, text := .bit s.capBit }] := by
    simp [State.delivered]
  rw [BitSpansOrdered, hbits]
  refine ⟨?_, fun r hr => ?_, fun hw => by cases hw⟩
  · exact List.pairwise_append.2 ⟨hpair, List.pairwise_singleton _ _, by simpa using hafter⟩
  · rcases List.mem_append.1 hr with hold | hnew
    · exact ⟨(hspan r hold).1, (hspan r hold).2.trans hlt.le⟩
    · obtain rfl := List.mem_singleton.1 hnew
      exact ⟨hcap.trans_lt hlt, le_rfl⟩

theorem BitSpansOrdered.of_launch (p : Params) (c : Cfg) (last : Nat) : BitSpansOrdered last (State.launch p c) :=
  ⟨.nil, by simp [State.launch], fun hw => by cases hw⟩

theorem State.phase_of_fetch_eq_smpUpdate {s : State} {m : Sample} (h : s.fetch = .smpUpdate m) :
    s.phase = .waitUpdate := by
  rcases s.fetch_kinds with ⟨-, hf⟩ | ⟨-, hphase, -⟩ | ⟨-, hf | hf | hf | hf | hf⟩
  · cases h.symm.trans hf
  · exact hphase
  all_goals cases h.symm.trans hf

/-- A sample of a higher index: a capture edge starts a bit at it, an update edge ends one there, and no other sample touches
the bits. -/
theorem BitSpansOrdered.step_sample {last : Nat} {s t : State} (h : BitSpansOrdered last s) (hstep : step s = .next t)
    (hnorst : s.port.rst = false) (hlt : last < s.port.smp.idx) : BitSpansOrdered s.port.smp.idx t := by
  cases stepsTo_of_step hstep with
  | reset hrst => cases hnorst.symm.trans hrst
  | none | seed | ignore | hold => exact h.of_same_bits hlt.le rfl fun hw => ⟨hw, rfl⟩
  | capture =>
    obtain ⟨hpair, hspan, -⟩ := h
    have hbefore : ∀ r ∈ bitRecords s.stream, r.stop ≤ s.port.smp.idx := fun r hr => (hspan r hr).2.trans hlt.le
    exact ⟨hpair, fun r hr => ⟨(hspan r hr).1, hbefore r hr⟩, fun _ => ⟨le_rfl, hbefore⟩⟩
  | update hrst hfetch hrun =>
    have hphase := State.phase_of_fetch_eq_smpUpdate hfetch
    obtain ⟨-, -, -, -, hwait, -⟩ := runFrameOp_session hrun
    exact (h.delivered hphase hlt).of_same_bits le_rfl (bitStepsTo_of_runBit hrun).bitRecords_eq
      fun hw => by cases hwait.symm.trans hw

/-- A reset drops the captured bit, and a step with no sample holds every register. -/
theorem BitSpansOrdered.step_no_sample {last : Nat} {s t : State} (h : BitSpansOrdered last s) (hstep : step s = .next t)
    (hport : s.port.rst = true ∨ s.port.smpValid = false) : BitSpansOrdered last t := by
  cases hrst : s.port.rst
  · rw [step, State.fetch_eq_smpNone hrst (hport.resolve_left (by simp [hrst])), exec_smpNone] at hstep
    cases hstep
    exact h.of_same_bits le_rfl rfl fun hw => ⟨hw, rfl⟩
  · cases stepsTo_of_step hstep with
    | reset => exact h.of_same_bits le_rfl rfl fun hw => by cases hw
    | none hnorst | seed hnorst | capture hnorst | ignore hnorst | hold hnorst | update hnorst =>
      cases hrst.symm.trans hnorst

/-- Settles O55: a launch has delivered no bit, and a step processes a sample or none. -/
theorem bitSpansNeverOverlap : Obligations.BitSpansNeverOverlap :=
  ⟨BitSpansOrdered.of_launch, fun _ _ _ h hstep =>
    ⟨fun hrst _ hlt => h.step_sample hstep hrst hlt, fun hport => h.step_no_sample hstep hport⟩⟩

/-! ### A bit step -/

/-- Settles O15: steps 1 to 3 of the per-bit update leave the state written out, and the operation they select is performed
as its instruction. -/
theorem bitStepRunsSelectedOperation : Obligations.BitStepRunsSelectedOperation := by
  intro smp s t
  have htaken : (s.closeBit smp).takeBit s.capBit s.capIdx smp.idx = t := rfl
  rw [exec_smpUpdate, htaken, runFrameOp_eq_exec]
  rfl

/-- Settles O25: the Frame Decoder's operation stops on a full card string only, and writes nothing of the session state. -/
theorem smpUpdateCompletes : Obligations.SmpUpdateCompletes := by
  intro smp s hroom
  rcases runBit_cases smp.idx ((s.closeBit smp).takeBit s.capBit s.capIdx smp.idx) with
    ⟨t, hrun⟩ | ⟨hst, hn, hseen, hfull, hval, -⟩
  · obtain ⟨hparams, hinputs, hclk, hv, hphase, hidx, hbit, hcfg, hfault, hshreg, hout⟩ := runFrameOp_session hrun
    exact ⟨t, hrun, hphase, hclk, hv, hidx, hbit, hcfg, hparams, hinputs, hfault, hshreg, hout⟩
  · exact absurd ⟨hst, Nat.succ.inj hn, hseen, hfull, hval⟩ hroom

/-! ### The other operations of the sampler -/

theorem detect_eq_some_opposite {a b : Bool} {e : Edge} :
    detect a b = some e.opposite ↔ a = e.levelAfter ∧ b = !e.levelAfter := by
  rw [detect_eq_some, levelAfter_opposite, Bool.not_not]

section
variable {s : State}

theorem State.fetch_eq_smpCapture (hrst : s.port.rst = false) (hvalid : s.port.smpValid = true) (hprev : s.clkPrevV = true)
    (hphase : s.phase = .waitCapture) (hedge : detect s.clkPrev s.port.smp.clk = some s.cfg.edge) :
    s.fetch = .smpCapture s.port.smp := by
  rw [State.fetch_of_waitCapture hrst hvalid hprev hphase, if_pos (detect_eq_some.1 hedge)]

theorem State.fetch_eq_smpIgnore (hrst : s.port.rst = false) (hvalid : s.port.smpValid = true) (hprev : s.clkPrevV = true)
    (hphase : s.phase = .waitCapture) (hedge : detect s.clkPrev s.port.smp.clk ≠ some s.cfg.edge) :
    s.fetch = .smpIgnore s.port.smp := by
  rw [State.fetch_of_waitCapture hrst hvalid hprev hphase, if_neg (mt detect_eq_some.2 hedge)]

theorem State.fetch_eq_smpHold (hrst : s.port.rst = false) (hvalid : s.port.smpValid = true) (hprev : s.clkPrevV = true)
    (hphase : s.phase = .waitUpdate) (hedge : detect s.clkPrev s.port.smp.clk ≠ some s.cfg.edge.opposite) :
    s.fetch = .smpHold s.port.smp := by
  rw [State.fetch_of_waitUpdate hrst hvalid hprev hphase, if_neg (mt detect_eq_some_opposite.2 hedge)]

/-- While the sampler waits for the update edge the clock stands at the level after a capture edge, so no second one can come
(40_bit_sampler.md R126 (d)). -/
theorem SamplerConsistent.no_capture_edge (h : SamplerConsistent s) (hphase : s.phase = .waitUpdate) (level : Bool) :
    detect s.clkPrev level ≠ some s.cfg.edge := by
  obtain ⟨-, hclk⟩ := h hphase
  rw [Ne, detect_eq_some, hclk]
  exact fun ⟨hlevel, _⟩ => Bool.not_ne_self _ hlevel.symm

end

theorem SamplerConsistent.of_launch (p : Params) (c : Cfg) : SamplerConsistent (State.launch p c) := by
  intro hw; cases hw

theorem exec_smpSeed (smp : Sample) (s : State) :
    exec (.smpSeed smp) s = .next { s.beginStep with clkPrev := smp.clk, clkPrevV := true } := rfl

theorem exec_smpCapture (smp : Sample) (s : State) :
    exec (.smpCapture smp) s = .next
      { s.beginStep with
        capIdx := smp.idx, capBit := polmap s.cfg.pol smp.dat, phase := .waitUpdate, clkPrev := smp.clk } := rfl

theorem polmap_eq_ite (pol : Polarity) (d : Bool) : polmap pol d = if pol = .inverted then !d else d := by
  cases pol <;> rfl

/-- Settles O24: the two operations have one effect, and the sampler's part of the invariant rules out a second capture
edge. -/
theorem nonEdgeWritesOnlyClkPrev : Obligations.NonEdgeWritesOnlyClkPrev :=
  ⟨fun _ => State.fetch_eq_smpIgnore, fun _ => State.fetch_eq_smpHold, fun _ _ => ⟨rfl, rfl⟩,
    fun _ level h hphase => h.no_capture_edge hphase level, SamplerConsistent.of_launch,
    fun _ _ => step_keeps_samplerConsistent⟩

/-- Settles O21: neither a reset nor a sample selects SMP_NONE, which only begins the step. -/
theorem smpNoneHoldsState : Obligations.SmpNoneHoldsState :=
  ⟨fun _ => State.fetch_eq_smpNone, exec_smpNone⟩

/-- Settles O22: an unseeded sampler takes its first sample as the seed. -/
theorem smpSeedEffect : Obligations.SmpSeedEffect :=
  ⟨fun _ => State.fetch_eq_smpSeed, exec_smpSeed⟩

/-- Settles O23: a capture edge selects SMP_CAPTURE, and `polmap` complements the data level under Inverted. -/
theorem smpCaptureEffect : Obligations.SmpCaptureEffect := by
  refine ⟨fun _ => State.fetch_eq_smpCapture, fun smp s => ?_⟩
  rw [exec_smpCapture, polmap_eq_ite]
  rfl

end Sys2Proof.Machine
end

section
/-! PROOFS. The Frame Decoder's statements (41_frame_fsm.md): the operations that count and those that end a lead field, the
digits, the transition table, and runs of bits up to a count's limit. -/

namespace Sys2Proof.Machine

/-! ### The operation of a bit step -/

/-- Settles O27: the four operations answer their state. -/
theorem countingOperationsWriteNothing : Obligations.CountingOperationsWriteNothing :=
  fun _ _ => ⟨rfl, rfl, rfl, rfl⟩

section
variable {b : BitSel}

theorem decode_leadinEnd (hst : b.state = .leadIn) (hn : b.n = b.leadIn) : decode (.bit b) = .leadinEnd b.stop := by
  simp [decode, decodeFrame, hst, hn, FrameOp.toInstr]

theorem decode_leadoutEnd (hst : b.state = .leadOut) (hn : b.n = b.leadOut) : decode (.bit b) = .leadoutEnd b.stop := by
  simp [decode, decodeFrame, hst, hn, FrameOp.toInstr]

theorem decode_lrcDigit (hst : b.state = .lrc) (hn : b.n = 5) : decode (.bit b) = .lrcDigit b.w b.stop := by
  simp [decode, decodeFrame, hst, hn, FrameOp.toInstr]

/-- The fifth bit in Digits selects by the digit word and `seen_begin` (41_frame_fsm.md R147). -/
theorem decode_digit (hst : b.state = .digits) (hn : b.n = 5) :
    decode (.bit b) = (decodeDigit b.seenBegin b.w).toInstr b.stop := by
  simp [decode, decodeFrame, hst, hn]

end

section
variable {u : State} (stop : Nat)

/-- Below the limit the state's counting operation is selected (41_frame_fsm.md R144, R146, R154, R156). -/
theorem runBit_of_ne_limit (h : u.bitcnt ≠ countLimit u) : u.runBit stop = .next u := by
  cases hst : u.state <;> simp only [countLimit, hst] at h <;>
    simp [State.runBit, State.bitSel, decodeFrame, hst, h, runFrameOp, execLeadinBit, execDigitsBit, execLrcBit,
      execLeadoutBit]

theorem runBit_eq_exec : u.runBit stop = exec (decode (.bit (u.bitSel stop))) u := runFrameOp_eq_exec _ _ _

end

/-- Settles O28: the count after steps 1 to 3 is not the limit. -/
theorem bitBelowLimitOnlyCounts : Obligations.BitBelowLimitOnlyCounts := fun smp _ hlt =>
  runBit_of_ne_limit smp.idx hlt.ne

/-! ### The ends of the lead fields -/

theorem exec_leadinEnd (stop : Nat) (s : State) :
    exec (.leadinEnd stop) s = .next
      { (s.emit (.mark { kind := .leadIn, start := s.digitStart, stop := stop })).clearBuffer with state := .digits } := rfl

theorem exec_leadoutEnd (stop : Nat) (s : State) :
    exec (.leadoutEnd stop) s = .next (s.emit (.mark { kind := .leadOut, start := s.digitStart, stop := stop })).fullReset :=
  rfl

theorem runBit_leadIn_at_limit {u : State} (stop : Nat) (hst : u.state = .leadIn) (hlim : u.bitcnt = countLimit u) :
    u.runBit stop = .next
      { (u.emit (.mark { kind := .leadIn, start := u.digitStart, stop := stop })).clearBuffer with state := .digits } := by
  rw [runBit_eq_exec, decode_leadinEnd hst (hlim.trans (countLimit_of_leadIn hst)), exec_leadinEnd]; rfl

theorem runBit_leadOut_at_limit {u : State} (stop : Nat) (hst : u.state = .leadOut) (hlim : u.bitcnt = countLimit u) :
    u.runBit stop = .next (u.emit (.mark { kind := .leadOut, start := u.digitStart, stop := stop })).fullReset := by
  rw [runBit_eq_exec, decode_leadoutEnd hst (hlim.trans (countLimit_of_leadOut hst)), exec_leadoutEnd]; rfl

/-- Settles O29: a MARK record, and the digit tail. -/
theorem leadinEndEffect : Obligations.LeadinEndEffect := ⟨fun _ => decode_leadinEnd, exec_leadinEnd⟩

/-- Settles O30: a MARK record, and the full reset. -/
theorem leadoutEndEffect : Obligations.LeadoutEndEffect := ⟨fun _ => decode_leadoutEnd, exec_leadoutEnd⟩

/-! ### Digits -/

section
variable {w : DigitWord} {v : Nibble} (hv : wordValue w = v) (r : Role) (b : Nat) (s : State)
include hv

/-- A digit resolved and put out, as every operation on a digit's fifth bit does (42_digit_resolution.md R170). -/
theorem State.digit_eq :
    (s.resolve w b).emitDig r v b =
      { s with
        lrcAcc := s.lrcAcc ^^^ v
        out := { parityOut s.cfg w s.digitStart b s.out with
                 dig := some { role := r, val := v, start := s.digitStart, stop := b } }
        stream := s.stream ++ parityRecords s.cfg w s.digitStart b
          ++ [{ start := s.digitStart, stop := b, category := roleCategory s.cfg.fold r, text := .hex v }] } := by
  rw [State.resolve_eq, hv]; rfl

/-- A digit put out and the card string flushed; the `end` of an empty flush is a draw (44_card_record.md R213, R214). -/
theorem State.flush_digit_eq (c : Cause) :
    ((s.resolve w b).emitDig r v b).flush c =
      { s with
        lrcAcc := s.lrcAcc ^^^ v, cardStartV := false, cardLen := 0, draws := s.draws + 1
        out := { parityOut s.cfg w s.digitStart b s.out with
                 dig := some { role := r, val := v, start := s.digitStart, stop := b }
                 card := some { cause := c, start := s.cardStart
                                stop := if 0 < s.cardLen then s.cardEnd else drawIndex s.params s.draws
                                n := s.cardLen, digits := s.cardBuf.take s.cardLen } }
        stream := s.stream ++ parityRecords s.cfg w s.digitStart b
          ++ [{ start := s.digitStart, stop := b, category := roleCategory s.cfg.fold r, text := .hex v },
              { start := s.cardStart, stop := if 0 < s.cardLen then s.cardEnd else drawIndex s.params s.draws
                category := .card
                text := if 0 < s.cardLen then .card (s.cardBuf.take s.cardLen) else .noData }] } := by
  rw [State.digit_eq hv, State.flush_eq]
  rcases Nat.eq_zero_or_pos s.cardLen with hlen | hlen
  · simp [State.flushEnd, cardText, hlen]
  · simp [State.flushEnd, cardText, hlen, hlen.ne']

end

/-- Settles O31: the digit, then `seen_begin` and the two spans. -/
theorem digBeginEffect : Obligations.DigBeginEffect := by
  refine ⟨fun b hst hn hv => ?_, fun p stop s => ?_⟩
  · rw [decode_digit hst hn, decodeDigit_begin _ (BitVec.eq_of_toNat_eq hv)]; rfl
  · simp only [exec, execDigBegin, State.digit_eq (wordValue_digitWord p codeBegin)]; rfl

/-- Settles O32: the digit and the flush, whose draw is an index. -/
theorem digSeparatorEffect : Obligations.DigSeparatorEffect := by
  refine ⟨fun b hst hn hv => ?_, fun p stop s => ⟨_, s.draws + 1, drawIndex_lt s.params s.draws, ?_⟩⟩
  · rw [decode_digit hst hn, decodeDigit_separator _ (BitVec.eq_of_toNat_eq hv)]; rfl
  · simp only [exec, execDigSeparator, State.flush_digit_eq (wordValue_digitWord p codeSeparator)]; rfl

/-- Settles O36: the digit and the digit tail; the category of an Unknown digit is the one that ERROR_FOLD moves. -/
theorem digUnknownEffect : Obligations.DigUnknownEffect := by
  refine ⟨fun b hst hn hv hseen => ?_, fun v p stop s => ?_⟩
  · rw [decode_digit hst hn, decodeDigit_nonControl _ hv, hseen]; rfl
  · have hcat : roleCategory s.cfg.fold .unknown = if s.cfg.fold = .folded then .error else .unknown := by
      cases s.cfg.fold <;> rfl
    simp only [exec, execDigUnknown, State.digit_eq (wordValue_digitWord p v), hcat]; rfl

/-- Settles O34: with room the digit is put out and appended; without, nothing of it is done. -/
theorem digDataEffect : Obligations.DigDataEffect := by
  refine ⟨fun b hst hn hv hseen => ?_, fun v p stop s hroom => ?_, fun v p stop s hfull => ?_⟩
  · rw [decode_digit hst hn, decodeDigit_nonControl _ hv, hseen]; rfl
  · rw [exec_digData, execDigData_of_not_full _ _ _ (State.cardFull_eq_false.2 hroom),
      State.digit_eq (wordValue_digitWord p v)]
    rfl
  · rw [exec_digData, execDigData_of_full _ _ _ (beq_iff_eq.2 hfull)]
    exact ⟨_, rfl, rfl⟩

/-- Settles O37: LRCERR stands before the digit's own records. -/
theorem lrcDigitEffect : Obligations.LrcDigitEffect := by
  refine ⟨fun _ => decode_lrcDigit, fun w stop s => ?_⟩
  simp only [exec, execLrcDigit, State.digit_eq (rfl : wordValue w = wordValue w), State.checkLrc_eq]
  by_cases hok : w = s.lrcExp <;> simp [hok, State.clearBuffer, parityOut, roleCategory]

/-! ### The fifth bit in Digits -/

/-- The digit in the shift register resolved and put out with its role (41_frame_fsm.md R147 to R152). -/
def State.digitOut (stop : Nat) (u : State) : State :=
  (u.resolve u.shreg stop).emitDig (digitRole u.seenBegin (wordValue u.shreg)) (wordValue u.shreg) stop

theorem nibble_cases (v : Nibble) : v = codeBegin ∨ v = codeSeparator ∨ v = codeEnd ∨ nonControl v = true := by
  revert v; decide

theorem digitRole_of_nonControl (seen : Bool) {v : Nibble} (h : nonControl v = true) :
    digitRole seen v = if seen then .data else .unknown := by
  simp only [nonControl, Bool.and_eq_true, bne_iff_ne] at h
  obtain ⟨⟨hb, hd⟩, hf⟩ := h
  simp [digitRole, codeBegin, codeSeparator, codeEnd, hb, hd, hf]

theorem ne_codeEnd_of_nonControl {v : Nibble} (h : nonControl v = true) : v ≠ codeEnd := by
  rintro rfl; cases h

/-- What the fifth bit of a digit does in Digits, by the digit's value and `seen_begin` (30_encoding.md R90). -/
theorem runBit_digit_cases (stop : Nat) {u : State} (hst : u.state = .digits) (hn : u.bitcnt = 5) :
    (wordValue u.shreg = codeBegin
        ∧ u.runBit stop = .next (State.clearBuffer { u.digitOut stop with seenBegin := true, cardStartV := false }))
      ∨ (wordValue u.shreg = codeSeparator ∧ u.runBit stop = .next ((u.digitOut stop).flush .separator).clearBuffer)
      ∨ (wordValue u.shreg = codeEnd
        ∧ u.runBit stop = .next (State.clearBuffer
            { (u.digitOut stop).flush .endDigit with
              lrcExp := lrcExpected (u.digitOut stop).lrcAcc, state := .lrc }))
      ∨ (nonControl (wordValue u.shreg) = true ∧ u.seenBegin = true ∧ u.cardLen ≠ u.params.cardCap
        ∧ u.runBit stop = .next ((u.digitOut stop).cardAppend (wordValue u.shreg) stop).clearBuffer)
      ∨ (nonControl (wordValue u.shreg) = true ∧ u.seenBegin = true ∧ u.cardLen = u.params.cardCap
        ∧ u.runBit stop = u.raiseCardOverflow)
      ∨ (nonControl (wordValue u.shreg) = true ∧ u.seenBegin = false
        ∧ u.runBit stop = .next (u.digitOut stop).clearBuffer) := by
  have hrun : u.runBit stop = exec ((decodeDigit u.seenBegin u.shreg).toInstr stop) u := by
    rw [runBit_eq_exec, decode_digit hst hn]; rfl
  have hw := digitWord_of_word u.shreg
  rw [hrun]
  rcases nibble_cases (wordValue u.shreg) with hv | hv | hv | hv
  · rw [hv] at hw
    rw [decodeDigit_begin _ hv]
    exact .inl ⟨hv, by simp only [FrameOp.toInstr, exec, execDigBegin, hw, State.digitOut, hv]; rfl⟩
  · rw [hv] at hw
    rw [decodeDigit_separator _ hv]
    exact .inr (.inl ⟨hv, by simp only [FrameOp.toInstr, exec, execDigSeparator, hw, State.digitOut, hv]; rfl⟩)
  · rw [hv] at hw
    rw [decodeDigit_end _ hv]
    exact .inr (.inr (.inl ⟨hv, by simp only [FrameOp.toInstr, exec, execDigEnd, hw, State.digitOut, hv]; rfl⟩))
  · rw [decodeDigit_nonControl _ hv]
    have hrole := digitRole_of_nonControl u.seenBegin hv
    refine .inr (.inr (.inr ?_))
    cases hseen : u.seenBegin <;> rw [hseen] at hrole
    · exact .inr (.inr ⟨hv, rfl, by simp [FrameOp.toInstr, exec, execDigUnknown, hw, State.digitOut, hseen, hrole]⟩)
    · by_cases hroom : u.cardLen = u.params.cardCap
      · exact .inr (.inl ⟨hv, rfl, hroom, execDigData_of_full _ _ _ (beq_iff_eq.2 hroom)⟩)
      · have hdata := execDigData_of_not_full (wordValue u.shreg) (wordParityBit u.shreg) stop
          (State.cardFull_eq_false.2 hroom)
        rw [hw] at hdata
        exact .inl ⟨hv, rfl, hroom, by rw [State.digitOut, hseen, hrole]; exact hdata⟩

/-! ### The transition table -/

theorem runBit_lrc_at_limit {u : State} (stop : Nat) (hst : u.state = .lrc) (hlim : u.bitcnt = countLimit u) :
    u.runBit stop = execLrcDigit u.shreg stop u := by
  rw [runBit_eq_exec, decode_lrcDigit hst (hlim.trans (countLimit_of_lrc hst))]; rfl

/-- The bit taken ends a field of the packet: the count is at its limit, and in Digits the digit is an End
(41_frame_fsm.md R159). -/
def EndsField (u : State) : Prop :=
  u.bitcnt = countLimit u ∧ (u.state = .digits → wordValue u.shreg = codeEnd)

/-- In Digits the state moves with an End digit only. -/
theorem runBit_digit_state {stop : Nat} {u t : State} (hst : u.state = .digits) (hn : u.bitcnt = 5)
    (h : u.runBit stop = .next t) : t.state = if wordValue u.shreg = codeEnd then .lrc else .digits := by
  have hkeep : (u.digitOut stop).state = .digits := by simp [State.digitOut, hst]
  rcases runBit_digit_cases stop hst hn with ⟨hv, hrun⟩ | ⟨hv, hrun⟩ | ⟨hv, hrun⟩ | ⟨hv, -, -, hrun⟩ | ⟨-, -, -, hrun⟩
      | ⟨hv, -, hrun⟩ <;> rw [hrun] at h <;> cases h
  · simp [hv, hkeep, codeBegin, codeEnd]
  · simp [hv, hkeep, codeSeparator, codeEnd]
  · simp [hv]
  · simp [ne_codeEnd_of_nonControl hv, hkeep]
  · simp [ne_codeEnd_of_nonControl hv, hkeep]

/-- A bit step moves to the next Decoder State exactly where it ends a field. -/
theorem runBit_state {stop : Nat} {u t : State} (h : u.runBit stop = .next t) :
    (EndsField u → t.state = nextFrame u.state) ∧ (¬EndsField u → t.state = u.state) := by
  by_cases hlim : u.bitcnt = countLimit u
  · have hends (hst : u.state ≠ .digits) : EndsField u := ⟨hlim, fun hdig => absurd hdig hst⟩
    cases hst : u.state with
    | digits =>
      have hstate := runBit_digit_state hst (hlim.trans (countLimit_of_digits hst)) h
      simp [EndsField, hlim, hst, nextFrame, hstate]
    | leadIn =>
      rw [runBit_leadIn_at_limit stop hst hlim] at h
      cases h
      exact ⟨fun _ => rfl, fun hno => absurd (hends (by simp [hst])) hno⟩
    | lrc =>
      rw [runBit_lrc_at_limit stop hst hlim] at h
      cases h
      exact ⟨fun _ => rfl, fun hno => absurd (hends (by simp [hst])) hno⟩
    | leadOut =>
      rw [runBit_leadOut_at_limit stop hst hlim] at h
      cases h
      exact ⟨fun _ => rfl, fun hno => absurd (hends (by simp [hst])) hno⟩
  · rw [runBit_of_ne_limit stop hlim] at h
    cases h
    exact ⟨fun hend => absurd hend.1 hlim, fun _ => rfl⟩

/-- Only a bit step and a hardware reset write the Decoder State. -/
theorem step_keeps_state {s t : State} (hnorst : s.port.rst = false) (hno : ¬∃ smp, s.fetch = .smpUpdate smp)
    (h : step s = .next t) : t.state = s.state := by
  cases stepsTo_of_step h with
  | reset hrst => cases hnorst.symm.trans hrst
  | update hrst hfetch => exact absurd ⟨_, hfetch⟩ hno
  | _ => rfl

/-- The step delivers a bit that ends a field of the packet. -/
def Moves (s : State) : Prop :=
  (∃ smp, s.fetch = .smpUpdate smp) ∧ s.bitcnt + 1 = countLimit s
    ∧ (s.state = .digits → wordValue (shiftIn s.capBit s.shreg) = 15#4)

theorem step_state {s t : State} (hnorst : s.port.rst = false) (h : step s = .next t) :
    (Moves s → t.state = nextFrame s.state) ∧ (¬Moves s → t.state = s.state) := by
  by_cases hup : ∃ smp, s.fetch = .smpUpdate smp
  · obtain ⟨smp, hfetch⟩ := hup
    rw [step, hfetch] at h
    obtain ⟨hmove, hstay⟩ := runBit_state (u := (s.popInput.closeBit smp).takeBit s.capBit s.capIdx smp.idx) h
    exact ⟨fun ⟨_, hend⟩ => hmove hend, fun hno => hstay fun hend => hno ⟨⟨smp, hfetch⟩, hend⟩⟩
  · exact ⟨fun hm => absurd hm.1 hup, fun _ => step_keeps_state hnorst hup h⟩

theorem step_state_of_reset {s t : State} (hrst : s.port.rst = true) (h : step s = .next t) : t.state = .leadIn := by
  cases stepsTo_of_step h with
  | reset => rfl
  | none hno | seed hno | capture hno | ignore hno | hold hno | update hno => cases hrst.symm.trans hno

/-- Settles O46: `Moves` names the statement's condition. -/
theorem frameStateTransitions : Obligations.FrameStateTransitions := fun _ _ h =>
  ⟨fun hrst => step_state_of_reset hrst h, fun hrst => (step_state hrst h).1, fun hrst => (step_state hrst h).2⟩

/-- A bit step that writes `lrc_exp` goes from Digits to Lrc (41_frame_fsm.md R150). -/
theorem BitStepsTo.lrcExp_cases {stop : Nat} {u t : State} (h : BitStepsTo stop u t) :
    t.lrcExp = u.lrcExp ∨ (u.state = .digits ∧ t.state = .lrc) := by
  cases h with
  | digEnd p hst => exact .inr ⟨hst, rfl⟩
  | _ => exact .inl (by simp)

theorem step_lrcExp_cases {s t : State} (hnorst : s.port.rst = false) (h : step s = .next t) :
    t.lrcExp = s.lrcExp ∨ (s.state = .digits ∧ t.state = .lrc) := by
  cases stepsTo_of_step h with
  | reset hrst => cases hnorst.symm.trans hrst
  | update hrst hfetch hrun => exact (bitStepsTo_of_runBit hrun).lrcExp_cases
  | _ => exact .inl rfl

theorem nextFrame_eq_lrc {f : FrameState} : nextFrame f = .lrc ↔ f = .digits := by cases f <;> decide

/-- Lrc is entered from Digits, with an End digit (41_frame_fsm.md R150, R159). -/
theorem step_enters_lrc {s t : State} (hnorst : s.port.rst = false) (h : step s = .next t) (hs : s.state ≠ .lrc)
    (ht : t.state = .lrc) : Moves s ∧ s.state = .digits := by
  obtain ⟨hmove, hstay⟩ := step_state hnorst h
  have hmoves : Moves s := not_not.1 fun hno => hs ((hstay hno).symm.trans ht)
  exact ⟨hmoves, nextFrame_eq_lrc.1 ((hmove hmoves).symm.trans ht)⟩

/-- Settles O33: the digit and the flush, then the expected LRC of the new accumulator; a step that writes `lrc_exp` enters
Lrc. -/
theorem digEndEffect : Obligations.DigEndEffect := by
  refine ⟨fun b hst hn hv => ?_, fun p stop s => ⟨_, s.draws + 1, drawIndex_lt s.params s.draws, ?_⟩,
    fun s t hnorst h hwrites => ?_⟩
  · rw [decode_digit hst hn, decodeDigit_end _ (BitVec.eq_of_toNat_eq hv)]; rfl
  · simp only [exec, execDigEnd, State.flush_digit_eq (wordValue_digitWord p codeEnd)]; rfl
  · have henters : s.state ≠ .lrc ∧ t.state = .lrc := by
      rcases hwrites with hexp | henters
      · obtain ⟨hst, ht⟩ := (step_lrcExp_cases hnorst h).resolve_left hexp
        exact ⟨by simp [hst], ht⟩
      · exact henters
    obtain ⟨⟨hup, hcount, hval⟩, hst⟩ := step_enters_lrc hnorst h henters.1 henters.2
    rw [countLimit_of_digits hst] at hcount
    exact ⟨hup, hst, Nat.succ.inj hcount, hval hst⟩

/-! ### Runs of bits -/

/-- Bits taken through steps 1 to 3 of the per-bit update one after another, each in a step of its own. -/
def State.takeBits : List BitSpan → State → State
  | [], s => s
  | b :: bs, s => (s.beginStep.takeBit b.val b.start b.stop).takeBits bs

section
variable (bs : List BitSpan) (s : State)

/-- What neither the start of a step nor steps 1 to 3 of the per-bit update write is kept. -/
theorem State.takeBits_keeps {α : Type} (f : State → α)
    (hf : ∀ (x : Bool) (a b : Nat) (u : State), f (u.beginStep.takeBit x a b) = f u) : f (s.takeBits bs) = f s := by
  induction bs generalizing s with
  | nil => rfl
  | cons b bs ih => exact (ih _).trans (hf _ _ _ _)

@[simp] theorem State.takeBits_params : (s.takeBits bs).params = s.params :=
  State.takeBits_keeps bs s State.params fun _ _ _ _ => rfl

@[simp] theorem State.takeBits_state : (s.takeBits bs).state = s.state :=
  State.takeBits_keeps bs s State.state fun _ _ _ _ => rfl

@[simp] theorem State.takeBits_cardLen : (s.takeBits bs).cardLen = s.cardLen :=
  State.takeBits_keeps bs s State.cardLen fun _ _ _ _ => rfl

@[simp] theorem State.takeBits_lrcAcc : (s.takeBits bs).lrcAcc = s.lrcAcc :=
  State.takeBits_keeps bs s State.lrcAcc fun _ _ _ _ => rfl

@[simp] theorem State.takeBits_seenBegin : (s.takeBits bs).seenBegin = s.seenBegin :=
  State.takeBits_keeps bs s State.seenBegin fun _ _ _ _ => rfl

@[simp] theorem State.takeBits_cfg : (s.takeBits bs).cfg = s.cfg :=
  State.takeBits_keeps bs s State.cfg fun _ _ _ _ => rfl

@[simp] theorem State.takeBits_bitcnt : (s.takeBits bs).bitcnt = s.bitcnt + bs.length := by
  induction bs generalizing s with
  | nil => rfl
  | cons b bs ih => simp [State.takeBits, ih]; omega

theorem State.takeBits_shreg :
    (s.takeBits bs).shreg = bs.foldl (fun w b => shiftIn b.val w) s.shreg := by
  induction bs generalizing s with
  | nil => rfl
  | cons b bs ih => exact ih _

@[simp] theorem State.takeBits_stream : (s.takeBits bs).stream = s.stream ++ bs.map BitSpan.record := by
  induction bs generalizing s with
  | nil => exact (List.append_nil _).symm
  | cons b bs ih => rw [State.takeBits, ih]; simp [BitSpan.record]

@[simp] theorem countLimit_takeBits : countLimit (s.takeBits bs) = countLimit s := by simp [countLimit]

/-- An open digit span keeps its start (41_frame_fsm.md R142). -/
theorem State.takeBits_digitStart_of_open (h : s.digitStartV = true) : (s.takeBits bs).digitStart = s.digitStart := by
  induction bs generalizing s with
  | nil => rfl
  | cons b bs ih => rw [State.takeBits, ih _ rfl]; simp [openStart, h]

/-- A closed digit span opens at the first bit (41_frame_fsm.md R142). -/
theorem State.takeBits_digitStart_of_closed {b : BitSpan} (h : s.digitStartV = false) (hb : bs.head? = some b) :
    (s.takeBits bs).digitStart = b.start := by
  obtain ⟨bs, rfl⟩ := List.head?_eq_some_iff.1 hb
  rw [State.takeBits, State.takeBits_digitStart_of_open _ _ rfl]
  simp [openStart, h]

/-- The last bit of a run, taken after the others. -/
theorem State.takeBits_concat (b : BitSpan) :
    s.takeBits (bs ++ [b]) = (s.takeBits bs).beginStep.takeBit b.val b.start b.stop := by
  induction bs generalizing s with
  | nil => rfl
  | cons b' bs ih => exact ih _

/-- After the last bit of a run BIT alone is asserted. -/
theorem State.takeBits_out (b : BitSpan) :
    (s.takeBits (bs ++ [b])).out = { noOutput with bit := some { val := b.val, start := b.start, stop := b.stop } } := by
  rw [State.takeBits_concat]; rfl

end

theorem perBitUpdate_eq_runBit (x : Bool) (a b : Nat) (s : State) :
    perBitUpdate x a b s = (s.takeBit x a b).runBit b := rfl

theorem deliver_append_of_next {bs : List BitSpan} {s t : State} (bs' : List BitSpan) (h : deliver bs s = .next t) :
    deliver (bs ++ bs') s = deliver bs' t := by
  induction bs generalizing s with
  | nil => cases h; rfl
  | cons b bs ih =>
    obtain ⟨u, hbit, hdel⟩ := deliver_cons_next h
    rw [List.cons_append, deliver, hbit]
    exact ih hdel

theorem deliver_singleton (b : BitSpan) (s : State) :
    deliver [b] s = perBitUpdate b.val b.start b.stop s.beginStep := by
  rw [deliver]
  cases perBitUpdate b.val b.start b.stop s.beginStep <;> rfl

/-- Bits that leave the count below its limit are only counted. -/
theorem deliver_below_limit {bs : List BitSpan} {s : State} (h : s.bitcnt + bs.length < countLimit s) :
    deliver bs s = .next (s.takeBits bs) := by
  induction bs generalizing s with
  | nil => rfl
  | cons b bs ih =>
    rw [List.length_cons] at h
    have hne : s.bitcnt + 1 ≠ countLimit s := by omega
    have hrest : s.bitcnt + 1 + bs.length < countLimit s := by omega
    rw [deliver, perBitUpdate_eq_runBit, runBit_of_ne_limit b.stop hne]
    exact ih hrest

/-- The bit that takes the count to its limit runs the operation that ends the field. -/
theorem deliver_to_limit {bs : List BitSpan} {s : State} (h : s.bitcnt + bs.length + 1 = countLimit s) (b : BitSpan) :
    deliver (bs ++ [b]) s = (s.takeBits (bs ++ [b])).runBit b.stop := by
  rw [deliver_append_of_next [b] (deliver_below_limit (by omega)), deliver_singleton, perBitUpdate_eq_runBit,
    State.takeBits_concat]

/-- A lead field, from an empty buffer: before the limit its bits are only counted; at it the field's end emits MARK over
them, `close` being what it does besides. -/
theorem deliver_lead_field {bs : List BitSpan} {s : State} {kind : MarkKind} {close : State → State}
    (hempty : s.bitcnt = 0) (hclosed : s.digitStartV = false) (hpos : 1 ≤ countLimit s) (hlen : bs.length ≤ countLimit s)
    (hend : ∀ (u : State) (stop : Nat), u.state = s.state → u.bitcnt = countLimit u →
      u.runBit stop = .next (close (u.emit (.mark { kind := kind, start := u.digitStart, stop := stop })))) :
    (bs.length < countLimit s ∧ deliver bs s = .next (s.takeBits bs))
      ∨ (bs.length = countLimit s ∧ ∃ u, deliver bs s = .next (close u)
          ∧ ∀ b0 b1, bs.head? = some b0 → bs.getLast? = some b1 →
              u.out.mark = some { kind := kind, start := b0.start, stop := b1.stop }) := by
  rcases hlen.lt_or_eq with hlt | heq
  · exact .inl ⟨hlt, deliver_below_limit (by omega)⟩
  · rcases bs.eq_nil_or_concat' with rfl | ⟨bs, b, rfl⟩
    · rw [← heq] at hpos; cases hpos
    · have hrun := hend (s.takeBits (bs ++ [b])) b.stop (by simp) (by simp [hempty, ← heq])
      rw [← deliver_to_limit (by simpa [hempty] using heq)] at hrun
      refine .inr ⟨heq, _, hrun, fun b0 b1 h0 h1 => ?_⟩
      rw [List.getLast?_concat] at h1
      cases h1
      simp [Bundle.put, State.takeBits_digitStart_of_closed _ s hclosed h0]

/-- Settles O56: LeadIn is a lead field, which LEADIN_END ends. -/
theorem leadInTakesExactlyItsLength : Obligations.LeadInTakesExactlyItsLength := by
  intro s bs hst hempty hclosed hpos hlen
  rw [← countLimit_of_leadIn hst] at hpos hlen ⊢
  rcases deliver_lead_field (close := fun u => { u.clearBuffer with state := .digits }) hempty hclosed hpos hlen
      (fun _ stop hu => runBit_leadIn_at_limit stop (hu.trans hst)) with ⟨hlt, hdel⟩ | ⟨heq, u, hdel, hmark⟩
  · exact ⟨_, hdel, fun _ => by simp [hst, hempty], fun heq => absurd heq hlt.ne⟩
  · exact ⟨_, hdel, fun hlt => absurd heq hlt.ne, fun _ => ⟨rfl, rfl, rfl, hmark⟩⟩

/-- Settles O57: LeadOut is a lead field, which LEADOUT_END ends with the full reset. -/
theorem leadOutTakesExactlyItsLength : Obligations.LeadOutTakesExactlyItsLength := by
  intro s bs hst hempty hclosed hpos hlen
  rw [← countLimit_of_leadOut hst] at hpos hlen ⊢
  rcases deliver_lead_field (close := State.fullReset) hempty hclosed hpos hlen
      (fun _ stop hu => runBit_leadOut_at_limit stop (hu.trans hst)) with ⟨hlt, hdel⟩ | ⟨heq, u, hdel, hmark⟩
  · exact ⟨_, hdel, fun _ => by simp [hst, hempty], fun heq => absurd heq hlt.ne⟩
  · exact ⟨_, hdel, fun hlt => absurd heq hlt.ne, fun _ => ⟨rfl, rfl, rfl, rfl, rfl, rfl, rfl, hmark⟩⟩

/-! ### A whole digit -/

/-- A digit of value `v`, put out in state `d`, has been dispatched and its buffer cleared in state `t`; `cards` are the
records that follow the digit's: one CARD after a Separator or an End, else none (41_frame_fsm.md R147 to R153). -/
structure DigitCompleted (v : Nibble) (d t : State) (cards : List Record) : Prop where
  stream : t.stream = d.stream ++ cards
  length : cards.length = if v = 13#4 ∨ v = 15#4 then 1 else 0
  category : ∀ c ∈ cards, c.category = .card
  par : t.out.par = d.out.par
  dig : t.out.dig = d.out.dig
  card : t.out.card.isSome = true ↔ v = 13#4 ∨ v = 15#4
  lrcAcc : t.lrcAcc = d.lrcAcc
  bitcnt : t.bitcnt = 0
  digitStartV : t.digitStartV = false

section
variable {v : Nibble} (d : State)

/-- A digit that flushes no card string writes, beside the digit tail, `seen_begin` and the card record. -/
theorem DigitCompleted.of_no_flush (sb cv : Bool) (cb : List Nibble) (cl ce : Nat) (hcard : d.out.card = none)
    (hno : ¬(v = 13#4 ∨ v = 15#4)) :
    DigitCompleted v d
      { d.clearBuffer with seenBegin := sb, cardStartV := cv, cardBuf := cb, cardLen := cl, cardEnd := ce } [] where
  stream := (List.append_nil _).symm
  length := (if_neg hno).symm
  category := nofun
  par := rfl
  dig := rfl
  card := by simpa [hcard] using hno
  lrcAcc := rfl
  bitcnt := rfl
  digitStartV := rfl

/-- A digit that flushes the card string writes `lrc_exp` and the Decoder State beside. -/
theorem DigitCompleted.of_flush (c : Cause) (e : DigitWord) (st : FrameState) (hyes : v = 13#4 ∨ v = 15#4) :
    DigitCompleted v d { (d.flush c).clearBuffer with lrcExp := e, state := st }
      [serialise d.cfg.fold (d.cardEmission c)] where
  stream := rfl
  length := (if_pos hyes).symm
  category := by simp [State.cardEmission, serialise]
  par := rfl
  dig := rfl
  card := iff_of_true rfl hyes
  lrcAcc := rfl
  bitcnt := rfl
  digitStartV := rfl

end

theorem State.digitOut_eq (stop : Nat) (u : State) :
    u.digitOut stop =
      { u with
        lrcAcc := u.lrcAcc ^^^ wordValue u.shreg
        out := { parityOut u.cfg u.shreg u.digitStart stop u.out with
                 dig := some { role := digitRole u.seenBegin (wordValue u.shreg), val := wordValue u.shreg
                               start := u.digitStart, stop := stop } }
        stream := u.stream ++ parityRecords u.cfg u.shreg u.digitStart stop
          ++ [{ start := u.digitStart, stop := stop
                category := roleCategory u.cfg.fold (digitRole u.seenBegin (wordValue u.shreg))
                text := .hex (wordValue u.shreg) }] } :=
  State.digit_eq rfl _ _ _

/-- Unless it is a Data digit with the card string full, the fifth bit completes a digit. -/
theorem runBit_completes_digit (stop : Nat) {u : State} (hst : u.state = .digits) (hn : u.bitcnt = 5)
    (hcard : u.out.card = none)
    (hroom : ¬(u.seenBegin = true ∧ nonControl (wordValue u.shreg) = true ∧ u.cardLen = u.params.cardCap)) :
    ∃ t cards, u.runBit stop = .next t ∧ DigitCompleted (wordValue u.shreg) (u.digitOut stop) t cards := by
  have hdata (hv : nonControl (wordValue u.shreg) = true) : ¬(wordValue u.shreg = 13#4 ∨ wordValue u.shreg = 15#4) := by
    rintro (h | h) <;> rw [h] at hv <;> cases hv
  have hcard' : (u.digitOut stop).out.card = none := by rw [State.digitOut_eq]; exact hcard
  have hcases := runBit_digit_cases stop hst hn
  generalize u.digitOut stop = d at hcard' hcases ⊢
  rcases hcases with ⟨hv, hrun⟩ | ⟨hv, hrun⟩ | ⟨hv, hrun⟩ | ⟨hv, -, -, hrun⟩ | ⟨hv, hseen, hfull, -⟩ | ⟨hv, -, hrun⟩
  · exact ⟨_, _, hrun, .of_no_flush d _ _ _ _ _ hcard' (by rw [hv]; decide)⟩
  · exact ⟨_, _, hrun, .of_flush d _ _ _ (.inl hv)⟩
  · exact ⟨_, _, hrun, .of_flush d _ _ _ (.inr hv)⟩
  · exact ⟨_, _, hrun, .of_no_flush d _ _ _ _ _ hcard' (hdata hv)⟩
  · exact absurd ⟨hseen, hv, hfull⟩ hroom
  · exact ⟨_, _, hrun, .of_no_flush d _ _ _ _ _ hcard' (hdata hv)⟩

/-- Five bits shifted in make the word that has them in the order received (20_memory.md R62). -/
theorem shiftIn_word_bits (r w : DigitWord) :
    shiftIn (w.getLsbD 4) (shiftIn (w.getLsbD 3) (shiftIn (w.getLsbD 2) (shiftIn (w.getLsbD 1)
      (shiftIn (w.getLsbD 0) r)))) = w := by
  refine BitVec.eq_of_getLsbD_eq fun i hi => ?_
  interval_cases i <;> simp only [getLsbD_shiftIn_four, getLsbD_shiftIn_of_lt, Nat.reduceLT, Nat.reduceAdd]

/-- Settles O58: the first four bits are only counted, and the fifth completes the digit they have shifted in. -/
theorem fiveBitsCompleteOneDigit : Obligations.FiveBitsCompleteOneDigit := by
  intro s w b0 b1 b2 b3 b4 hst hempty hclosed h0 h1 h2 h3 h4 hroom
  have hdel := deliver_to_limit (s := s) (bs := [b0, b1, b2, b3]) (by simp [hempty, countLimit_of_digits hst]) b4
  have hout := State.takeBits_out [b0, b1, b2, b3] s b4
  have hstart := State.takeBits_digitStart_of_closed ([b0, b1, b2, b3] ++ [b4]) s hclosed rfl
  have hw : (s.takeBits ([b0, b1, b2, b3] ++ [b4])).shreg = w := by
    rw [State.takeBits_shreg]
    simpa only [List.cons_append, List.nil_append, List.foldl, h0, h1, h2, h3, h4] using shiftIn_word_bits s.shreg w
  have hu : (s.takeBits ([b0, b1, b2, b3] ++ [b4])).state = .digits := by simp [hst]
  have hn : (s.takeBits ([b0, b1, b2, b3] ++ [b4])).bitcnt = 5 := by simp [hempty]
  obtain ⟨t, cards, hrun, hdone⟩ := runBit_completes_digit b4.stop hu hn (by rw [hout]; rfl)
    (by rwa [hw, State.takeBits_seenBegin, State.takeBits_cardLen, State.takeBits_params])
  have hstate := runBit_digit_state hu hn hrun
  obtain ⟨hadds, hlength, hcat, hpar, hdig, hcard, hacc, hbits, hspan⟩ := hdone
  simp only [State.digitOut_eq, hw, hstart, State.takeBits_cfg, State.takeBits_seenBegin, State.takeBits_lrcAcc,
    State.takeBits_stream] at hadds hlength hpar hdig hcard hacc hstate
  refine ⟨t, cards, hdel.trans hrun, ?_, hlength, hcat, hpar, hdig, hcard, hacc, hbits, hspan, hstate⟩
  rw [hadds]
  simp only [List.append_assoc]
  rfl

end Sys2Proof.Machine
end

section
/-! PROOFS. The digit resolution statement (42_digit_resolution.md): the parity checker, and the sum of the bits mod 2. -/

namespace Sys2Proof.Machine

/-- The checker's gate, bit by bit (42_digit_resolution.md R172). -/
theorem oddParity_eq_xor (w : DigitWord) :
    oddParity w = (w.getLsbD 0 ^^ w.getLsbD 1 ^^ w.getLsbD 2 ^^ w.getLsbD 3 ^^ w.getLsbD 4) := by
  simp [oddParity, xorReduce, List.range_succ]

theorem decide_toNat_odd (b : Bool) : decide (b.toNat % 2 = 1) = b := by
  cases b <;> rfl

/-- One more bit in a sum is one more exclusive or in its oddness. -/
theorem decide_add_toNat_odd (n : Nat) (b : Bool) :
    decide ((n + b.toNat) % 2 = 1) = (decide (n % 2 = 1) ^^ b) := by
  cases b with
  | false => simp
  | true => simp [Nat.succ_mod_two_eq_one_iff, ← decide_not]

/-- Settles O6: the oddness of the sum, taken bit by bit, is the exclusive or. -/
theorem parityIsSumModTwo : Obligations.ParityIsSumModTwo := fun w =>
  ⟨oddParity_eq_xor w, by simp only [oddParity_eq_xor, decide_add_toNat_odd, decide_toNat_odd]⟩

end Sys2Proof.Machine
end

section
/-! PROOFS. The LRC statements (43_lrc.md): the accumulator, the expected vector, and an LRC digit wrong in one bit. -/

namespace Sys2Proof.Machine

/-! ### The accumulator -/

/-- Bit i of the accumulation from any value: each value that has bit i inverts it (43_lrc.md R191). -/
theorem getLsbD_foldl_accumulate (l : List Nibble) (acc : Nibble) (i : Nat) :
    (l.foldl accumulate acc).getLsbD i
      = (acc.getLsbD i ^^ decide (l.countP (fun v => v.getLsbD i) % 2 = 1)) := by
  induction l generalizing acc with
  | nil => simp
  | cons v vs ih =>
    have hcount : (v :: vs).countP (fun v => v.getLsbD i)
        = vs.countP (fun v => v.getLsbD i) + (v.getLsbD i).toNat := by
      cases h : v.getLsbD i <;> simp [h]
    rw [List.foldl_cons, ih, hcount, decide_add_toNat_odd, accumulate, BitVec.getLsbD_xor, Bool.xor_assoc,
      Bool.xor_comm (v.getLsbD i)]

/-- Settles O38: each bit is the oddness of a count, which the order of the list does not change. -/
theorem accumulatorIsPerBitParity : Obligations.AccumulatorIsPerBitParity := by
  have hbit (l : List Nibble) (i : Nat) :
      (l.foldl accumulate 0#4).getLsbD i = decide (l.countP (fun v => v.getLsbD i) % 2 = 1) := by
    rw [getLsbD_foldl_accumulate, BitVec.getLsbD_zero, Bool.false_xor]
  refine ⟨fun l i _ => hbit l i, fun l l' hperm => BitVec.eq_of_getLsbD_eq fun i _ => ?_⟩
  rw [hbit, hbit, hperm.countP_eq]

/-! ### The expected vector -/

/-- The expected vector is the well-formed digit of the accumulator's value (43_lrc.md R192, 30_encoding.md R89). -/
theorem lrcExpected_eq_digitWord (a : Nibble) : lrcExpected a = digitWord (goodParityBit a) a := rfl

theorem oddParity_lrcExpected (a : Nibble) : oddParity (lrcExpected a) = true := by
  rw [lrcExpected_eq_digitWord, oddParity_goodParityBit]

theorem getLsbD_lrcExpected_of_lt {i : Nat} (hi : i < 4) (a : Nibble) : (lrcExpected a).getLsbD i = a.getLsbD i := by
  rw [lrcExpected, BitVec.getLsbD_cons, if_neg hi.ne]

/-- Settles O39: the vector is a digit word of odd parity with the accumulator's bits below its parity bit. -/
theorem expectedLrcIsOddWord : Obligations.ExpectedLrcIsOddWord := fun a =>
  ⟨getLsbD_lrcExpected_of_lt (by decide) a, getLsbD_lrcExpected_of_lt (by decide) a,
    getLsbD_lrcExpected_of_lt (by decide) a, getLsbD_lrcExpected_of_lt (by decide) a, oddParity_lrcExpected a⟩

/-! ### A digit wrong in one bit -/

/-- One inverted bit inverts the parity (42_digit_resolution.md R172). -/
theorem oddParity_xor_twoPow {k : Nat} (hk : k < 5) (w : DigitWord) :
    oddParity (w ^^^ BitVec.twoPow 5 k) = !oddParity w := by
  interval_cases k <;> simp [oddParity_eq_xor]

/-- One inverted bit leaves the value as it was only if it is the parity bit (30_encoding.md R87). -/
theorem wordValue_xor_twoPow_eq_iff {k : Nat} (hk : k < 5) (w : DigitWord) :
    wordValue (w ^^^ BitVec.twoPow 5 k) = wordValue w ↔ k = 4 := by
  have hbit : wordValue (BitVec.twoPow 5 k) = 0#4 ↔ k = 4 := by interval_cases k <;> decide
  have hxor : wordValue (w ^^^ BitVec.twoPow 5 k) = wordValue w ^^^ wordValue (BitVec.twoPow 5 k) :=
    BitVec.extractLsb'_xor
  rw [hxor, ← hbit, ← BitVec.xor_right_inj (y := 0#4) (wordValue w), BitVec.xor_zero]

/-- Settles O40: the corrupted vector is even, so it is not the expected one, and LRC_DIGIT reports both. -/
theorem lrcSingleBitCorruption : Obligations.LrcSingleBitCorruption := by
  intro a k stop s hk hexp w
  have heven : oddParity w = false := by
    rw [oddParity_xor_twoPow hk, hexp, oddParity_lrcExpected]; rfl
  have hne : w ≠ s.lrcExp := fun h => by
    rw [h, hexp, oddParity_lrcExpected] at heven; cases heven
  refine ⟨_, lrcDigitEffect.2 w stop s, if_neg hne, ?_, ?_, rfl, wordValue_xor_twoPow_eq_iff hk s.lrcExp, rfl⟩
  · simp [parityOut, heven]
  · simp [parityOut, flagsParity, heven]

end Sys2Proof.Machine
end

section
/-! PROOFS. The card record statements (44_card_record.md): the Data digit that finds the card string full, and the flush of
an empty string. -/

namespace Sys2Proof.Machine

/-! ### A full card string -/

/-- The fifth bit of a non-control digit after a Begin selects DIG_DATA, which a full string stops (44_card_record.md R212). -/
theorem runBit_digit_of_full (stop : Nat) {u : State} (hst : u.state = .digits) (hn : u.bitcnt = 5)
    (hseen : u.seenBegin = true) (hfull : u.cardLen = u.params.cardCap) (hval : nonControl (wordValue u.shreg) = true) :
    u.runBit stop = u.raiseCardOverflow := by
  have hop : decode (.bit (u.bitSel stop)) = .digData (wordValue u.shreg) (wordParityBit u.shreg) stop :=
    digDataEffect.1 (u.bitSel stop) hst hn hval hseen
  rw [runBit_eq_exec, hop, exec_digData, execDigData_of_full _ _ _ (beq_iff_eq.2 hfull)]

/-- Settles O26: steps 1 to 3 complete the digit and leave the card string as it was. -/
theorem smpUpdateOverflows : Obligations.SmpUpdateOverflows := by
  intro smp s hst hn hseen hfull hval
  have hcount : ((s.closeBit smp).takeBit s.capBit s.capIdx smp.idx).bitcnt = 5 := congrArg (· + 1) hn
  exact ⟨_, runBit_digit_of_full smp.idx hst hcount hseen hfull hval, rfl⟩

/-! ### An empty card string -/

/-- The flush of an empty string has no digits and the text No Data, from the card span's start (44_card_record.md R214). -/
theorem State.flush_of_empty (c : Cause) {s : State} (hlen : s.cardLen = 0) :
    ∃ o, (s.flush c).out.card = some o ∧ o.n = 0 ∧ o.digits = [] ∧ o.start = s.cardStart
      ∧ ∃ r, (s.flush c).stream.getLast? = some r ∧ r.category = .card ∧ r.text = .noData ∧ r.start = s.cardStart :=
  ⟨_, rfl, hlen, by simp [hlen], rfl, _, List.getLast?_concat, rfl, if_pos hlen, rfl⟩

/-- Settles O50: before a Begin the string is empty, and the digit put out before the flush leaves it and its span's start. -/
theorem flushBeforeBeginIsNoData : Obligations.FlushBeforeBeginIsNoData := by
  rintro p stop s ⟨-, -, hempty, -⟩ hseen i hi
  have hflush (c : Cause) (r : Role) (v : Nibble) :=
    State.flush_of_empty c (s := (s.resolve (digitWord p v) stop).emitDig r v stop) (by simp [hempty hseen])
  simp only [State.emitDig_cardStart, State.resolve_cardStart] at hflush
  rw [List.mem_pair] at hi
  rcases hi with rfl | rfl
  · obtain ⟨o, hcard⟩ := hflush .separator .separator codeSeparator
    exact ⟨_, o, rfl, hcard⟩
  · obtain ⟨o, hcard⟩ := hflush .endDigit .endDigit codeEnd
    exact ⟨_, o, rfl, hcard⟩

end Sys2Proof.Machine
end

section
/-! PROOFS. The annotation output statements (45_annotation_output.md): how the output stream grows, which channels a step can
assert together, how the card digits are packed, and the categories. -/

namespace Sys2Proof.Machine

/-! ### The output stream -/

/-- Settles O41. Without a reset: a block with its own ERROR_FOLD and its own stream in place of them is itself, so what O54
says of every policy and stream (`emissions_put`: channels are asserted in their order) says what its stream becomes. A reset
asserts no channel and keeps the stream. -/
theorem streamGrowsByAssertedChannels : Obligations.StreamGrowsByAssertedChannels := by
  intro s t h
  cases hrst : s.port.rst
  · have hsame : withFold s.cfg.fold s.stream s = s := rfl
    have hstep := (errorFoldChangesNoRegister s.cfg.fold s.stream s hrst).1 t h
    rw [hsame, h] at hstep
    injection hstep with ht
    have hfold : t.cfg.fold = s.cfg.fold := by rw [ht]; rfl
    rw [hfold]
    exact congrArg State.stream ht
  · cases stepsTo_of_step h with
    | reset => exact (List.append_nil _).symm
    | none hnorst | seed hnorst | capture hnorst | ignore hnorst | hold hnorst | update hnorst =>
      cases hrst.symm.trans hnorst

/-! ### The channels of one step -/

/-- The output channels `b` with the records of a digit asserted: PAR, PERR where it is due, and DIG
(42_digit_resolution.md R170). -/
def putDigit (c : Cfg) (w : DigitWord) (d : DigOut) (b : Bundle) : Bundle :=
  { parityOut c w d.start d.stop b with dig := some d }

theorem State.resolve_emitDig_out (w : DigitWord) (r : Role) (v : Nibble) (b : Nat) (u : State) :
    ((u.resolve w b).emitDig r v b).out
      = putDigit u.cfg w { role := r, val := v, start := u.digitStart, stop := b } u.out := by
  rw [State.resolve_eq]; rfl

/-- The output channels with BIT alone asserted. -/
def bitOutput (o : BitOut) : Bundle := { noOutput with bit := some o }

/-- The combinations of channels that a step can assert under the configuration `c` (45_annotation_output.md R232). -/
inductive StepOutput (c : Cfg) : Bundle → Prop
  | silent : StepOutput c noOutput
  | bit (o : BitOut) : StepOutput c (bitOutput o)
  | mark (o : BitOut) (m : MarkOut) : StepOutput c { bitOutput o with mark := some m }
  | digit (o : BitOut) (w : DigitWord) (d : DigOut) (hin : d.role ≠ .leadIn) (hout : d.role ≠ .leadOut) :
      StepOutput c (putDigit c w d (bitOutput o))
  | lrcError (o : BitOut) (e : SpanOut) (w : DigitWord) (d : DigOut) (hrole : d.role = .lrc) :
      StepOutput c (putDigit c w d { bitOutput o with lrcerr := some e })
  | card (o : BitOut) (w : DigitWord) (d : DigOut) (k : CardOut) (hrole : d.role = .separator ∨ d.role = .endDigit) :
      StepOutput c { putDigit c w d (bitOutput o) with card := some k }

/-- A bit step has asserted BIT before the Frame Decoder's operation runs, which adds a marker, a digit or nothing. -/
theorem BitStepsTo.stepOutput {stop : Nat} {u t : State} {o : BitOut} (h : BitStepsTo stop u t)
    (hbit : u.out = bitOutput o) : StepOutput u.cfg t.out := by
  cases h with
  | count => rw [hbit]; exact .bit o
  | leadinEnd | leadoutEnd => simp only [State.clearBuffer_out, State.fullReset_out, State.emit_out, hbit]; exact .mark o _
  | digBegin | digData | digUnknown =>
    simp only [State.clearBuffer_out, State.cardAppend_out, State.resolve_emitDig_out, hbit]
    exact .digit o _ _ (by simp) (by simp)
  | digSeparator =>
    rw [State.clearBuffer_out, State.flush_out, State.resolve_emitDig_out, hbit]
    exact .card o _ _ _ (.inl rfl)
  | digEnd =>
    simp only [State.clearBuffer_out, State.endFlushed, State.flush_out, State.resolve_emitDig_out, hbit]
    exact .card o _ _ _ (.inr rfl)
  | lrcDigit w =>
    simp only [State.clearBuffer_out, State.resolve_emitDig_out, State.checkLrc_eq, hbit]
    split
    · exact .digit o _ _ (by simp) (by simp)
    · exact .lrcError o _ _ _ rfl

theorem out_of_ne_smpUpdate {s t : State} (h : step s = .next t) (hno : ∀ smp, s.fetch ≠ .smpUpdate smp) :
    t.out = noOutput := by
  cases stepsTo_of_step h with
  | update _ hfetch => exact absurd hfetch (hno _)
  | _ => rfl

theorem bit_of_smpUpdate {s t : State} (h : step s = .next t) (hupd : ∃ smp, s.fetch = .smpUpdate smp) :
    t.out.bit.isSome = true := by
  obtain ⟨smp, hfetch⟩ := hupd
  rw [step, hfetch, exec_smpUpdate] at h
  obtain ⟨-, -, -, -, -, -, -, -, -, -, hbit⟩ := runFrameOp_session h
  rw [hbit]; rfl

theorem stepOutput_of_step {s t : State} (h : step s = .next t) : StepOutput s.cfg t.out := by
  cases stepsTo_of_step h with
  | update _ _ hrun => exact (bitStepsTo_of_runBit hrun).stepOutput rfl
  | _ => exact .silent

section
variable {c : Cfg} {b : Bundle} (h : StepOutput c b)
include h

theorem StepOutput.mark_excludes (hmark : b.mark.isSome = true) :
    b.par = none ∧ b.dig = none ∧ b.card = none ∧ b.lrcerr = none := by
  cases h with
  | mark => exact ⟨rfl, rfl, rfl, rfl⟩
  | silent | bit | digit | lrcError | card => cases hmark

theorem StepOutput.par_isSome_eq : b.par.isSome = b.dig.isSome := by
  cases h <;> rfl

theorem StepOutput.perr_flagged (hperr : b.perr.isSome = true) :
    c.psev = .flagged ∧ ∃ o, b.par = some o ∧ o.odd = false := by
  cases h with
  | silent | bit | mark => cases hperr
  | digit o w d | lrcError o e w d | card o w d =>
    have hflag : flagsParity c w = true := by
      by_contra hno
      simp [putDigit, parityOut, hno, bitOutput, noOutput] at hperr
    simp only [flagsParity, Bool.and_eq_true, decide_eq_true_eq, Bool.not_eq_true'] at hflag
    obtain ⟨hsev, heven⟩ := hflag
    exact ⟨hsev, _, rfl, heven⟩

theorem StepOutput.lrcerr_needs_lrc (herr : b.lrcerr.isSome = true) :
    b.card = none ∧ ∃ o, b.dig = some o ∧ o.role = .lrc := by
  cases h with
  | lrcError _ _ _ d hrole => exact ⟨rfl, d, rfl, hrole⟩
  | silent | bit | mark | digit | card => cases herr

theorem StepOutput.card_needs_flush (hcard : b.card.isSome = true) :
    ∃ o, b.dig = some o ∧ (o.role = .separator ∨ o.role = .endDigit) := by
  cases h with
  | card _ _ d _ hrole => exact ⟨d, rfl, hrole⟩
  | silent | bit | mark | digit | lrcError => cases hcard

theorem StepOutput.dig_not_lead (o : DigOut) (hdig : b.dig = some o) : o.role ≠ .leadIn ∧ o.role ≠ .leadOut := by
  cases h with
  | silent | bit | mark => cases hdig
  | digit _ _ _ hin hout => cases hdig; exact ⟨hin, hout⟩
  | lrcError _ _ _ _ hrole => cases hdig; simp [hrole]
  | card _ _ _ _ hrole => cases hdig; rcases hrole with hrole | hrole <;> simp [hrole]

theorem StepOutput.length_emissions_le : b.emissions.length ≤ 5 := by
  cases h with
  | silent | bit | mark => simp [Bundle.emissions, bitOutput, noOutput]
  | digit o w | lrcError o e w | card o w =>
    cases hflag : flagsParity c w <;>
      simp [Bundle.emissions, putDigit, parityOut, bitOutput, noOutput, hflag]

end

/-- Settles O42: a step asserts one of the combinations of `StepOutput`. -/
theorem channelCombinations : Obligations.ChannelCombinations := by
  intro s t h
  have hout := stepOutput_of_step h
  exact ⟨out_of_ne_smpUpdate h, bit_of_smpUpdate h, hout.mark_excludes, hout.par_isSome_eq, hout.perr_flagged,
    hout.lrcerr_needs_lrc, hout.card_needs_flush, hout.dig_not_lead, hout.length_emissions_le⟩

/-! ### The card digits -/

/-- Settles O9: the head digit is the remainder mod 16, and dividing by 16 leaves the packing of the tail. -/
theorem cardDigitsArePackedInOrder : Obligations.CardDigitsArePackedInOrder := by
  intro ds
  induction ds with
  | nil => intro i d h; simp at h
  | cons a as ih =>
    intro i d h
    have hlt : a.toNat < 16 := a.isLt
    cases i with
    | zero =>
      cases h
      simp only [packDigits, Nat.mul_zero, Nat.pow_zero, Nat.div_one]
      omega
    | succ i =>
      have htail : packDigits (a :: as) / 16 = packDigits as := by rw [packDigits]; omega
      have hpow : 2 ^ (4 * (i + 1)) = 16 * 2 ^ (4 * i) := by rw [Nat.mul_succ, Nat.pow_add, Nat.mul_comm]
      rw [hpow, ← Nat.div_div_eq_div_mul, htail]
      exact ih i d h

/-! ### The categories -/

/-- Settles O43: ERROR_FOLD selects the category of an Unknown digit and of the error records only. -/
theorem categorySelection : Obligations.CategorySelection :=
  ⟨fun _ => ⟨rfl, rfl, rfl, rfl, rfl⟩, rfl, rfl, rfl, rfl⟩

end Sys2Proof.Machine
end

section
/-! PROOFS. The exception statements (60_exceptions.md): the refused reset, and the digit with even parity. -/

namespace Sys2Proof.Machine

/-! ### A reset with a lead length of 0 -/

/-- Settles O18: a reset input selects RESET, which an illegal configuration stops. -/
theorem resetRefusesZeroLength : Obligations.ResetRefusesZeroLength := by
  intro s hrst hzero
  rw [step, State.fetch_eq_reset hrst, exec_reset_of_not_legal _ (Cfg.legal_eq_false.2 hzero)]

/-! ### A digit with even parity -/

/-- Before the fifth bit the Digits selector does not read the digit word (41_frame_fsm.md R146). -/
theorem decode_digitsBit {b : BitSel} (hst : b.state = .digits) (hn : b.n ≠ 5) : decode (.bit b) = .digitsBit b.stop := by
  simp [decode, decodeFrame, hst, hn, FrameOp.toInstr]

/-- The parity bit is no part of the digit's value (30_encoding.md R86, R87). -/
theorem wordValue_xor_parityBit (w : DigitWord) : wordValue (w ^^^ 0b10000#5) = wordValue w :=
  (wordValue_xor_twoPow_eq_iff (by decide) w).2 rfl

/-- What reads no output does the same to two states that differ in their outputs only. -/
theorem next_withoutOutput_congr {f : State → State} {t t' : State}
    (hf : ∀ t, withoutOutput (f t) = withoutOutput (f (withoutOutput t))) (h : withoutOutput t = withoutOutput t') :
    mapOutcome withoutOutput (.next (f t)) = mapOutcome withoutOutput (.next (f t')) :=
  congrArg Host.Outcome.next (by rw [hf t, h, ← hf t'])

section
variable (p q : Bool) (v : Nibble) (stop : Nat) (s : State)

/-- A digit resolved and put out writes one register, `lrc_acc`, with the digit's value: its parity shows in the outputs
only (42_digit_resolution.md R170, R172, R173). -/
theorem withoutOutput_digit (r : Role) :
    withoutOutput ((s.resolve (digitWord p v) stop).emitDig r v stop)
      = withoutOutput ((s.resolve (digitWord q v) stop).emitDig r v stop) := by
  rw [State.digit_eq (wordValue_digitWord p v), State.digit_eq (wordValue_digitWord q v)]
  rfl

/-- DIG_DATA finds the full string before it resolves the digit (44_card_record.md R211, R212). -/
theorem exec_digData_withoutOutput :
    mapOutcome withoutOutput (exec (.digData v p stop) s) = mapOutcome withoutOutput (exec (.digData v q stop) s) := by
  rw [exec_digData, exec_digData]
  cases hfull : s.cardFull
  · rw [execDigData_of_not_full _ _ _ hfull, execDigData_of_not_full _ _ _ hfull]
    exact next_withoutOutput_congr (f := fun t => (t.cardAppend v stop).clearBuffer) (fun _ => rfl)
      (withoutOutput_digit p q v stop s .data)
  · rw [execDigData_of_full _ _ _ hfull, execDigData_of_full _ _ _ hfull]

end

/-- Two digit words of one value select one operation, up to its parity bit, and what the operation does after the digit is
put out reads no output (60_exceptions.md R252). -/
theorem exec_decodeDigit_withoutOutput (seen : Bool) {w w' : DigitWord} (h : wordValue w' = wordValue w) (stop : Nat)
    (s : State) :
    mapOutcome withoutOutput (exec ((decodeDigit seen w).toInstr stop) s)
      = mapOutcome withoutOutput (exec ((decodeDigit seen w').toInstr stop) s) := by
  have hdigit (r : Role) (v : Nibble) := withoutOutput_digit (wordParityBit w) (wordParityBit w') v stop s r
  rcases nibble_cases (wordValue w) with hv | hv | hv | hv
  · rw [decodeDigit_begin _ hv, decodeDigit_begin _ (h.trans hv)]
    exact next_withoutOutput_congr (f := fun t => State.clearBuffer { t with seenBegin := true, cardStartV := false })
      (fun _ => rfl) (hdigit .beginDigit codeBegin)
  · rw [decodeDigit_separator _ hv, decodeDigit_separator _ (h.trans hv)]
    exact next_withoutOutput_congr (f := fun t => (t.flush .separator).clearBuffer) (fun _ => rfl)
      (hdigit .separator codeSeparator)
  · rw [decodeDigit_end _ hv, decodeDigit_end _ (h.trans hv)]
    exact next_withoutOutput_congr
      (f := fun t => State.clearBuffer { t.flush .endDigit with lrcExp := lrcExpected t.lrcAcc, state := .lrc })
      (fun _ => rfl) (hdigit .endDigit codeEnd)
  · have hv' : nonControl (wordValue w') = true := h ▸ hv
    rw [decodeDigit_nonControl _ hv, decodeDigit_nonControl _ hv', h]
    cases seen
    · exact next_withoutOutput_congr (f := State.clearBuffer) (fun _ => rfl) (hdigit .unknown (wordValue w))
    · exact exec_digData_withoutOutput _ _ (wordValue w) stop s

/-- Settles O51: before the fifth bit no word is read, and at it the two words have one value. -/
theorem parityNeverChangesTheCourse : Obligations.ParityNeverChangesTheCourse := by
  intro b s hst
  by_cases hn : b.n = 5
  · have hflip := decode_digit (b := { b with w := b.w ^^^ 0b10000#5 }) hst hn
    rw [decode_digit hst hn, hflip]
    exact exec_decodeDigit_withoutOutput b.seenBegin (wordValue_xor_parityBit b.w) b.stop s
  · have hflip := decode_digitsBit (b := { b with w := b.w ^^^ 0b10000#5 }) hst hn
    rw [decode_digitsBit hst hn, hflip]

end Sys2Proof.Machine
end

section
/-! PROOFS. The reset statement (70_reset_and_hazards.md): what the hardware reset writes, and when it is refused. -/

namespace Sys2Proof.Machine

/-- 10_state.md R47: a configuration is legal when both lead lengths are positive. -/
theorem Cfg.legal_of_pos {c : Cfg} (hin : 1 ≤ c.leadIn) (hout : 1 ≤ c.leadOut) : c.legal = true := by
  simp [Cfg.legal, hin, hout]

/-- Settles O17: RESET is selected before the sample port is read; a legal configuration gives `State.hardwareReset`, whose
draws fit their registers, and one with a lead length of 0 is illegal. -/
theorem resetEffect : Obligations.ResetEffect := by
  refine ⟨fun _ => State.fetch_eq_reset, fun cfg s hin hout => ?_,
    fun _ s hzero => exec_reset_of_not_legal s (Cfg.legal_eq_false.2 hzero)⟩
  have hregs := State.hardwareReset_resetRegisters cfg s.beginStep
  obtain ⟨hcap, hdigit, hstart, hend⟩ := hregs.indicesFit
  exact ⟨_, _, _, _, _, _, _, _, _, hcap, hdigit, hstart, hend, hregs.cardBufLength,
    exec_reset_of_legal s (Cfg.legal_of_pos hin hout)⟩

end Sys2Proof.Machine
end
